-- ==== Sys2Proof/Word.lean ====
section
/-! DEFINITION. The word types of the Werphal W480: the byte of a telegram and of a head-link frame, and the 2- and
4-byte fields that telegrams carry (R154, R163). -/

namespace Sys2Proof

/-- One character of a telegram or one byte of a head-link frame (R153, R154, R34). -/
abbrev Byte := BitVec 8

/-- A 2-byte field of a telegram, a check value of a frame (R154, R163). -/
abbrev Word16 := BitVec 16

/-- A 4-byte field of a telegram; the card digest (R143, R163). -/
abbrev Word32 := BitVec 32

end Sys2Proof
end

