-- ==== Sys2Proof/Syntax.lean ====
section
/-! DEFINITION. The commands of the part, WHOLE: one constructor of `Instr` for each row of spec/opcode_table.json (64 rows),
with the operands its rule gives it. A request of the line controller carries its fields as the telegram carries them
(R163, R166), before any range check; an event carries what reaches the block that takes it. -/

namespace Sys2Proof

/-- The two puller channels (R16). -/
inductive Puller where
  | a
  | b
deriving DecidableEq, Repr

/-- The straps, true for a strap tied high (R153). -/
structure Straps where
  addr0 : Bool
  addr1 : Bool
  rate  : Bool
deriving DecidableEq, Repr

/-- The kind of an open zone (R86, R102). -/
inductive ZoneKind where
  | dimension
  | blind
deriving DecidableEq, Repr

/-- The side of an out result (R81). -/
inductive Side where
  | low
  | high
deriving DecidableEq, Repr

/-- The sides a DIMENSION zone has shown (R80, R102, R106). -/
inductive Sides where
  | low
  | high
  | both
deriving DecidableEq, Repr

/-- An excess and the cold value at it, both in µm (R80, R102). -/
structure Worst where
  excess : Int
  w      : Int
deriving DecidableEq, Repr

/-- What a scan event carries for one trended feature: its cold value, or the mark MISSING as `none` (R87). -/
structure TrendValue where
  feature : Fin 32
  w       : Option Int
deriving DecidableEq, Repr

/-- The scan event of one strand in a track slot (R87). -/
structure ScanEvent where
  strand      : Fin 4
  x           : Int
  temperature : Nat
  fallback    : Bool
  trended     : List TrendValue
deriving DecidableEq, Repr

/-- What an open event reports: a DIMENSION zone with its sides and worst, or a BLIND zone (R81, R83). -/
inductive Finding where
  | dimension (sides : Sides) (worst : Worst)
  | blind
deriving DecidableEq, Repr

/-- An open event (R81, R83, R103). -/
structure ZoneOpen where
  strand  : Fin 4
  feature : Fin 32
  start   : Int
  finding : Finding
deriving DecidableEq, Repr

/-- A DIMENSION update event; it carries a worst only when the zone's worst has risen (R81, R104). -/
structure ZoneUpdate where
  strand  : Fin 4
  feature : Fin 32
  side    : Side
  worst   : Option Worst
deriving DecidableEq, Repr

/-- A close event, with the end of the zone (R82, R84, R105). -/
structure ZoneClose where
  strand  : Fin 4
  feature : Fin 32
  kind    : ZoneKind
  finish  : Int
deriving DecidableEq, Repr

/-- One event from the section engine to the strand tracker (R86). -/
inductive TrackerEvent where
  | scan   (e : ScanEvent)
  | start  (e : ZoneOpen)
  | update (e : ZoneUpdate)
  | close  (e : ZoneClose)
deriving DecidableEq, Repr

/-- A head record as a telegram carries it (R166). -/
structure RawHead where
  enabled      : Byte
  strand       : Byte
  position     : Byte
  mirrorColumn : Byte
  mirrorRange  : Byte
  swap         : Byte
  c0           : Word16
  pitch        : Word16
  offU         : Word32
  offV         : Word32
  minPoints    : Word16
  dark         : Byte
  bright       : Byte
deriving DecidableEq, Repr

/-- The limits block of a feature record as a telegram carries it (R166). -/
structure RawLimits where
  nominal  : Word32
  lower    : Word32
  upper    : Word32
  kOpen    : Byte
  kClose   : Byte
  severity : Byte
deriving DecidableEq, Repr

/-- A feature record as a telegram carries it (R166). -/
structure RawFeature where
  featureId : Word16
  kind      : Byte
  posA      : Byte
  firstA    : Word16
  lastA     : Word16
  posB      : Byte
  firstB    : Word16
  lastB     : Word16
  minPoints : Word16
  trended   : Byte
  limits    : RawLimits
deriving DecidableEq, Repr

/-- A thermal section as a telegram carries it: the fields of R62 in the order of its table, coded by R163. -/
structure RawThermal where
  u0          : Word16
  u1          : Word16
  u2          : Word16
  k0          : Word16
  k1          : Word16
  k2          : Word16
  k3          : Word16
  hysteresis  : Word16
  defaultTemp : Word16
  hold        : Word16
deriving DecidableEq, Repr

/-- A line section as a telegram carries it: the fields of R136 in the order of its table, coded by R163. -/
structure RawLine where
  dHead         : Word32
  dSaw          : Word32
  scanPitch     : Word32
  scaleA        : Word32
  scaleB        : Word32
  weldLead      : Word32
  weldLength    : Word32
  stopMargin    : Word32
  stopSeverity  : Byte
  noseCrop      : Word32
  tailCrop      : Word32
  minLength     : Word32
  mergeGap      : Word32
  blindLimit    : Word16
  blindSeverity : Byte
  lineWait      : Word16
deriving DecidableEq, Repr

/-- What the engine finds in the bank when a store ends (R147): the copy as it was to be written; other bytes; or
bytes of a write that the memory did not complete. -/
inductive StoreRead where
  | copy
  | other (bytes : List Byte)
  | incomplete (bytes : List Byte)
deriving DecidableEq, Repr

/-- The commands of the part, one constructor per row of spec/opcode_table.json, in the table's order. -/
inductive Instr where
  | powerOn (straps : Straps) (selectHigh : Bool)
  | forwardCount (channel : Puller)
  | reverseCount (channel : Puller)
  | pullerSelectChange
  | cutEdge (highMicros : Nat)
  | lostCutReport
  | takeCut
  | lineFrame (bytes : List Byte)
  | lineWaitExpiry (slot : Fin 4)
  | strandEvaluation (strand : Fin 4)
  | slotEvaluationEnd
  | scanEvent (e : ScanEvent)
  | zoneOpenEvent (e : ZoneOpen)
  | zoneUpdateEvent (e : ZoneUpdate)
  | zoneCloseEvent (e : ZoneClose)
  | pyroSample (channel : Fin 4) (code : BitVec 12)
  | holdTimerExpiry (strand : Fin 4)
  | checkLimitExpiry
  | bankStoreEnd (found : StoreRead)
  | watchdogExpiry
  | frameGapTimeout
  | linkFrame (bytes : List Byte)
  | replySent
  | status
  | ident
  | setHead (head : Byte) (record : RawHead)
  | setCurve (head : Byte) (points : List Word32)
  | setFeature (feature : Byte) (record : RawFeature)
  | clearFeature (feature : Byte)
  | setLimits (feature : Byte) (limits : RawLimits)
  | setThermal (record : RawThermal)
  | setLine (record : RawLine)
  | setIdentity (die : Word32) (revision : Word16) (alloy : Byte) (strands : Byte)
  | readCard (part : Byte) (index : Byte)
  | bankLoad (bank : Byte)
  | bankStore (bank : Byte)
  | bankLock (bank : Byte) (mode : Byte)
  | bankInfo
  | setBoot (bank : Byte)
  | runStart
  | billetJoin
  | stop
  | resume
  | runEnd
  | runClose
  | withdraw (strand : Byte)
  | setTrigger (mode : Byte)
  | triggerOnce
  | headCheck (mask : Byte) (exposure : Byte)
  | headInfo
  | gaugeLatch (mask : Byte)
  | gaugeRead (strand : Byte)
  | trackRead (strand : Byte) (start : Byte)
  | reportRead
  | reportDrop (sequence : Word16)
  | readCounters
  | clearCounters
  | clearFlags (mask : Word16) (tally : Byte)
  | setAlarmMask (mask : Word16)
  | setWatchdog (interval : Word16)
  | forceFailsafe
  | clearFailsafe
  | restart
  | supplyFailure (landed : Bool)
deriving DecidableEq, Repr

end Sys2Proof
end

