-- ==== Sys2Proof/Decode.lean ====
section
/-! DEFINITION. The command that a word spells. No row of spec/opcode_table.json gives bits: the part's commands are telegrams,
frames, events and expiries, not words. So no word spells a command. (Telegrams are read in Machine/Telegram.lean.) -/

namespace Sys2Proof

/-- The command that a word of the table spells: none, since no row gives bits. -/
def decodeTableWord (_nbits _w : Nat) : Option Instr := none

end Sys2Proof
end

