-- ==== Sys2Proof/Machine/Card.lean ====
section
/-! DEFINITION. The die card: its seven sections as the manual's tables specify them (R1, R4, R13, R62, R69, R134 to R136),
the ranges of their fields, and the empty card. -/

namespace Sys2Proof

/-- The strands 0 to 3 in increasing strand number (R94, R115). -/
abbrev strandsInOrder : List (Fin 4) := [0, 1, 2, 3]

/-- The heads 0 to 7 in increasing number. -/
abbrev headsInOrder : List (Fin 8) := [0, 1, 2, 3, 4, 5, 6, 7]

/-- The features 0 to 31 in increasing index. -/
abbrev featuresInOrder : List (Fin 32) := List.finRange 32

/-- The vector `v` with its entry `i` replaced by `x`. -/
def setAt {α : Type} {n : Nat} (v : Vector α n) (i : Fin n) (x : α) : Vector α n := v.set i.val x i.isLt

/-- MINOR or MAJOR, the severities that a card names (R69, R136). -/
inductive Grade where
  | minor
  | major
deriving DecidableEq, Repr, Inhabited

/-- The severities of a zone, in rising order (R106). -/
inductive Severity where
  | minor
  | major
  | cutout
deriving DecidableEq, Repr, Inhabited

/-- The severity that a card's grade gives a zone (R105, R116). -/
def Grade.severity : Grade → Severity
  | .minor => .minor
  | .major => .major

/-- A head record (R1). -/
structure HeadRecord where
  enabled      : Bool
  strand       : Fin 4
  position     : Fin 4
  mirrorColumn : Bool
  mirrorRange  : Bool
  swap         : Bool
  c0           : Nat
  pitch        : Nat
  offU         : Int
  offV         : Int
  minPoints    : Nat
  dark         : Nat
  bright       : Nat
deriving DecidableEq, Repr, Inhabited

/-- A column window, from its first column to its last inclusive (R13). -/
structure Window where
  first : Nat
  last  : Nat
deriving DecidableEq, Repr, Inhabited

/-- The four feature kinds (R69). -/
inductive FeatureKind where
  | span
  | level
  | gap
  | flat
deriving DecidableEq, Repr, Inhabited

/-- A position and the window of columns read there (R69). -/
structure Place where
  position : Fin 4
  window   : Window
deriving DecidableEq, Repr, Inhabited

/-- The limits of a feature: the last six fields of its record (R69). -/
structure Limits where
  nominal  : Int
  lower    : Int
  upper    : Int
  kOpen    : Nat
  kClose   : Nat
  severity : Grade
deriving DecidableEq, Repr, Inhabited

/-- A present feature record (R69). Position B and window B are present for GAP only. -/
structure Feature where
  featureId : Nat
  kind      : FeatureKind
  placeA    : Place
  placeB    : Option Place
  minPoints : Nat
  trended   : Bool
  limits    : Limits
deriving DecidableEq, Repr, Inhabited

/-- The thermal section (R62): bounds and temperatures in dT, coefficients in 10⁻⁸ per °C, the hold time in ms. -/
structure ThermalSection where
  u0          : Nat
  u1          : Nat
  u2          : Nat
  k0          : Nat
  k1          : Nat
  k2          : Nat
  k3          : Nat
  hysteresis  : Nat
  defaultTemp : Nat
  hold        : Nat
deriving DecidableEq, Repr, Inhabited

/-- The line section (R136): distances, crops and lengths in mm, the scan pitch and scales in µm, the line wait in ms. -/
structure LineSection where
  dHead         : Nat
  dSaw          : Nat
  scanPitch     : Nat
  scaleA        : Nat
  scaleB        : Nat
  weldLead      : Nat
  weldLength    : Nat
  stopMargin    : Nat
  stopSeverity  : Grade
  noseCrop      : Nat
  tailCrop      : Nat
  minLength     : Nat
  mergeGap      : Nat
  blindLimit    : Nat
  blindSeverity : Grade
  lineWait      : Nat
deriving DecidableEq, Repr, Inhabited

/-- A die card (R134): identity, strand count, head section, curves, feature records, thermal section, line section. -/
structure Card where
  die      : Nat
  revision : Nat
  alloy    : Nat
  strands  : Nat
  heads    : Vector HeadRecord 8
  curves   : Vector (Vector Int 17) 8
  features : Vector (Option Feature) 32
  thermal  : ThermalSection
  line     : LineSection
deriving DecidableEq, Repr, Inhabited

/-- A head record of the empty card (R1). -/
def HeadRecord.empty : HeadRecord :=
  { enabled := false, strand := 0, position := 0, mirrorColumn := false, mirrorRange := false, swap := false,
    c0 := 0, pitch := 1, offU := 0, offV := 0, minPoints := 1, dark := 0, bright := 255 }

/-- The thermal section of the empty card (R62). -/
def ThermalSection.empty : ThermalSection :=
  { u0 := 0, u1 := 0, u2 := 0, k0 := 0, k1 := 0, k2 := 0, k3 := 0, hysteresis := 0, defaultTemp := 2000, hold := 0 }

/-- The line section of the empty card (R136). -/
def LineSection.empty : LineSection :=
  { dHead := 0, dSaw := 0, scanPitch := 1000, scaleA := 1, scaleB := 1, weldLead := 0, weldLength := 0,
    stopMargin := 0, stopSeverity := .minor, noseCrop := 0, tailCrop := 0, minLength := 0, mergeGap := 0,
    blindLimit := 0, blindSeverity := .minor, lineWait := 1 }

/-- The empty card (R134). -/
def Card.empty : Card :=
  { die := 0, revision := 0, alloy := 0, strands := 0,
    heads := Vector.replicate 8 HeadRecord.empty,
    curves := Vector.replicate 8 (Vector.replicate 17 0),
    features := Vector.replicate 32 none,
    thermal := ThermalSection.empty, line := LineSection.empty }

/-- The fields of a head record lie in the ranges of R1, with the dark limit below the bright limit. -/
def HeadRecord.inRange (h : HeadRecord) : Bool :=
  decide (h.c0 ≤ 511) && decide (1 ≤ h.pitch ∧ h.pitch ≤ 2000)
    && decide (-2000000 ≤ h.offU ∧ h.offU ≤ 2000000) && decide (-2000000 ≤ h.offV ∧ h.offV ≤ 2000000)
    && decide (1 ≤ h.minPoints ∧ h.minPoints ≤ 512) && decide (h.dark < h.bright) && decide (h.bright ≤ 255)

/-- A curve point lies in the range of R4. -/
def curvePointInRange (p : Int) : Bool := decide (-500000 ≤ p ∧ p ≤ 500000)

/-- A window on the card lies within the columns 0 to 511 (R13). -/
def Window.inRange (w : Window) : Bool := decide (w.first ≤ w.last ∧ w.last ≤ 511)

/-- The nominal and the tolerances lie in the ranges of R69, the upper tolerance not below the lower. -/
def Limits.tolerancesInRange (l : Limits) : Bool :=
  decide (-10000000 ≤ l.nominal ∧ l.nominal ≤ 10000000) && decide (-1000000 ≤ l.lower ∧ l.lower ≤ 1000000)
    && decide (-1000000 ≤ l.upper ∧ l.upper ≤ 1000000) && decide (l.lower ≤ l.upper)

/-- Limits as a card holds them: the tolerances in range, K_open and K_close from 1 to 15 (R69). -/
def Limits.inRange (l : Limits) : Bool :=
  l.tolerancesInRange && decide (1 ≤ l.kOpen ∧ l.kOpen ≤ 15) && decide (1 ≤ l.kClose ∧ l.kClose ≤ 15)

/-- A feature record as a card holds it (R69): position B and window B present exactly for GAP, at a position other
than position A. -/
def Feature.inRange (f : Feature) : Bool :=
  decide (f.featureId ≤ 65535) && f.placeA.window.inRange && decide (1 ≤ f.minPoints ∧ f.minPoints ≤ 512) && f.limits.inRange
    && (match f.placeB with
        | none => decide (f.kind ≠ .gap)
        | some b => decide (f.kind = .gap) && decide (b.position ≠ f.placeA.position) && b.window.inRange)

/-- The bounds of a thermal section are strictly increasing (R62, R142). -/
def ThermalSection.increasing (t : ThermalSection) : Bool := decide (t.u0 < t.u1 ∧ t.u1 < t.u2)

/-- The fields of a thermal section lie in the ranges of R62 (the bounds of the empty card are equal). -/
def ThermalSection.inRange (t : ThermalSection) : Bool :=
  decide (t.u0 ≤ t.u1 ∧ t.u1 ≤ t.u2 ∧ t.u2 ≤ 6095)
    && decide (t.k0 ≤ 5000 ∧ t.k1 ≤ 5000 ∧ t.k2 ≤ 5000 ∧ t.k3 ≤ 5000)
    && decide (t.hysteresis ≤ 500) && decide (2000 ≤ t.defaultTemp ∧ t.defaultTemp ≤ 6095) && decide (t.hold ≤ 5000)

/-- The fields of a line section that are not clamped lie in the ranges of R136. -/
def LineSection.unclampedInRange (l : LineSection) : Bool :=
  decide (l.dHead ≤ 100000) && decide (l.dSaw ≤ 100000)
    && decide (1 ≤ l.scaleA ∧ l.scaleA ≤ 10000) && decide (1 ≤ l.scaleB ∧ l.scaleB ≤ 10000)
    && decide (l.weldLead ≤ 50000) && decide (l.weldLength ≤ 50000) && decide (l.stopMargin ≤ 2000)
    && decide (l.noseCrop ≤ 20000) && decide (l.tailCrop ≤ 20000) && decide (l.minLength ≤ 100000)

/-- The fields of a line section as a card holds them (R136). -/
def LineSection.inRange (l : LineSection) : Bool :=
  l.unclampedInRange && decide (1000 ≤ l.scanPitch ∧ l.scanPitch ≤ 100000) && decide (l.mergeGap ≤ 1000)
    && decide (l.blindLimit ≤ 255) && decide (1 ≤ l.lineWait ∧ l.lineWait ≤ 100)

/-- How many present features of the card are trended (R69). -/
def Card.trendedCount (c : Card) : Nat :=
  c.features.toList.countP (fun f => match f with
    | some f => f.trended
    | none => false)

/-- No two enabled heads of the card share a strand and a position (R2). -/
def Card.headsApart (c : Card) : Bool :=
  headsInOrder.all fun i => headsInOrder.all fun j =>
    i == j || !(c.heads[i].enabled && c.heads[j].enabled && c.heads[i].strand == c.heads[j].strand
      && c.heads[i].position == c.heads[j].position)

/-- A card whose fields lie where the manual's tables put them (R1, R2, R4, R62, R69, R135, R136). -/
def Card.inRange (c : Card) : Bool :=
  decide (c.die ≤ 4294967295) && decide (c.revision ≤ 65535) && decide (c.alloy ≤ 255) && decide (c.strands ≤ 4)
    && c.heads.toList.all HeadRecord.inRange && c.headsApart
    && c.curves.toList.all (fun v => v.toList.all curvePointInRange)
    && c.features.toList.all (fun f => match f with
        | some f => f.inRange
        | none => true)
    && decide (c.trendedCount ≤ 8) && c.thermal.inRange && c.line.inRange

end Sys2Proof
end

