-- ==== Sys2Proof/Machine/Bytes.lean ====
section
/-! DEFINITION. Bytes: the little-endian coding of numbers on the links and in a card's canonical content (R143, R154, R163),
the exact rounding of the manual, the saturating count, and the two check codes (R143, R154). -/

namespace Sys2Proof.Machine

/-- Rounding to the nearest integer, ties away from zero (00_scope, Rounding), of `a / b` for `b` above 0. -/
def roundDiv (a : Int) (b : Nat) : Int :=
  let q : Nat := (2 * a.natAbs + b) / (2 * b)
  if a < 0 then -(q : Int) else (q : Int)

/-- A count that grows by `m` and stops at `top` (00_scope, Counters). -/
def bump (top n m : Nat) : Nat := min top (n + m)

/-- A 16-bit counter grown by one, stopping at 65535. -/
def bump16 (n : Nat) : Nat := bump 65535 n 1

/-- One byte holding a number below 256. -/
def byte (n : Nat) : Byte := BitVec.ofNat 8 n

/-- A yes-or-no byte (R163). -/
def yesNo (b : Bool) : Byte := if b then 1 else 0

/-- A 2-byte word, little-endian (R154). -/
def bytes16 (w : Word16) : List Byte := [w.extractLsb' 0 8, w.extractLsb' 8 8]

/-- A 4-byte word, little-endian (R154). -/
def bytes32 (w : Word32) : List Byte := [w.extractLsb' 0 8, w.extractLsb' 8 8, w.extractLsb' 16 8, w.extractLsb' 24 8]

/-- A number as 2 bytes, little-endian. -/
def le16 (n : Nat) : List Byte := bytes16 (BitVec.ofNat 16 n)

/-- A number as 4 bytes, little-endian. -/
def le32 (n : Nat) : List Byte := bytes32 (BitVec.ofNat 32 n)

/-- A signed number as 4 bytes, little-endian two's complement. -/
def leInt (i : Int) : List Byte := bytes32 (BitVec.ofInt 32 i)

/-- A travel as 8 bytes, little-endian (R163). -/
def le64 (n : Nat) : List Byte := le32 n ++ le32 (n / 4294967296)

/-- The byte at a place of a payload. -/
def byteAt (p : List Byte) (i : Nat) : Byte := p.getD i 0

/-- The 2-byte word at a place of a payload. -/
def word16At (p : List Byte) (i : Nat) : Word16 := byteAt p (i + 1) ++ byteAt p i

/-- The 4-byte word at a place of a payload. -/
def word32At (p : List Byte) (i : Nat) : Word32 := byteAt p (i + 3) ++ byteAt p (i + 2) ++ byteAt p (i + 1) ++ byteAt p i

/-- One bit of the CRC-16 with polynomial 1021h, most significant bit first (R154). -/
def crc16Bit (c : Word16) : Word16 := if c.msb then (c <<< 1) ^^^ 0x1021 else c <<< 1

/-- One byte of the CRC-16 (R154). -/
def crc16Byte (c : Word16) (b : Byte) : Word16 :=
  crc16Bit (crc16Bit (crc16Bit (crc16Bit (crc16Bit (crc16Bit (crc16Bit (crc16Bit (c ^^^ (b.setWidth 16 <<< 8)))))))))

/-- `k` of a word, written so that an evaluator has the word's numeral in hand before it goes on. -/
def forced {w : Nat} {α : Type} (c : BitVec w) (k : BitVec w → α) : α :=
  match c.toNat with
  | 0 => k (BitVec.ofNat w 0)
  | n + 1 => k (BitVec.ofNat w (Nat.succ n))

/-- The CRC-16 carried on from `c` over the bytes. -/
def crc16From (c : Word16) : List Byte → Word16
  | [] => c
  | b :: bs => forced (crc16Byte c b) fun d => crc16From d bs

/-- The CRC-16 of the link and of the head link: initial value FFFFh, not reflected, no final exclusive-or (R154). -/
def crc16 (bs : List Byte) : Word16 := crc16From 0xFFFF bs

/-- One bit of the CRC-32 with polynomial 04C11DB7h, least significant bit first, so with the polynomial reflected (R143). -/
def crc32Bit (c : Word32) : Word32 := if c.getLsbD 0 then (c >>> 1) ^^^ 0xEDB88320 else c >>> 1

/-- One byte of the CRC-32 (R143). -/
def crc32Byte (c : Word32) (b : Byte) : Word32 :=
  crc32Bit (crc32Bit (crc32Bit (crc32Bit (crc32Bit (crc32Bit (crc32Bit (crc32Bit (c ^^^ b.setWidth 32))))))))

/-- The CRC-32 carried on from `c` over the bytes. -/
def crc32From (c : Word32) : List Byte → Word32
  | [] => c
  | b :: bs => forced (crc32Byte c b) fun d => crc32From d bs

/-- The CRC-32 of a card's content: initial value FFFFFFFFh, reflected, final exclusive-or FFFFFFFFh (R143). -/
def crc32 (bs : List Byte) : Word32 := crc32From 0xFFFFFFFF bs ^^^ 0xFFFFFFFF

end Sys2Proof.Machine
end

