-- ==== Sys2Proof/Machine/Digest.lean ====
section
/-! DEFINITION. The canonical content of a card and its digest (R143): sections in the order of the rule, fields in the
order of their tables, numeric fields as 4 bytes, yes-or-no and enumerated fields as one byte. -/

namespace Sys2Proof.Machine

/-- The place of a severity in its list of values (R143: MINOR is 0 and MAJOR is 1). -/
def gradeCode : Grade → Byte
  | .minor => 0
  | .major => 1

/-- The place of a feature kind in its list of values (R69, R143: SPAN is 0 and FLAT is 3). -/
def kindCode : FeatureKind → Byte
  | .span => 0
  | .level => 1
  | .gap => 2
  | .flat => 3

/-- A head record in the order of the table of R1. -/
def contentOfHead (h : HeadRecord) : List Byte :=
  yesNo h.enabled :: le32 h.strand.val ++ le32 h.position.val
    ++ [yesNo h.mirrorColumn, yesNo h.mirrorRange, yesNo h.swap]
    ++ le32 h.c0 ++ le32 h.pitch ++ leInt h.offU ++ leInt h.offV ++ le32 h.minPoints ++ le32 h.dark ++ le32 h.bright

/-- A position and its window: the window as its first column and then its last (R143). -/
def contentOfPlace (p : Place) : List Byte := le32 p.position.val ++ le32 p.window.first ++ le32 p.window.last

/-- Position B and window B, left out where they are absent (R143). -/
def contentOfPlaceB : Option Place → List Byte
  | some p => contentOfPlace p
  | none => []

/-- The six limits in the order of the table of R69. -/
def contentOfLimits (l : Limits) : List Byte :=
  leInt l.nominal ++ leInt l.lower ++ leInt l.upper ++ le32 l.kOpen ++ le32 l.kClose ++ [gradeCode l.severity]

/-- A feature record: the presence byte, then the fields of a present feature in the order of the table of R69, position B
and window B left out where they are absent (R143). -/
def contentOfFeature : Option Feature → List Byte
  | none => [0]
  | some f =>
      1 :: le32 f.featureId ++ [kindCode f.kind] ++ contentOfPlace f.placeA
        ++ contentOfPlaceB f.placeB
        ++ le32 f.minPoints ++ [yesNo f.trended] ++ contentOfLimits f.limits

/-- The thermal section in the order of the table of R62. -/
def contentOfThermal (t : ThermalSection) : List Byte :=
  le32 t.u0 ++ le32 t.u1 ++ le32 t.u2 ++ le32 t.k0 ++ le32 t.k1 ++ le32 t.k2 ++ le32 t.k3
    ++ le32 t.hysteresis ++ le32 t.defaultTemp ++ le32 t.hold

/-- The line section in the order of the table of R136. -/
def contentOfLine (l : LineSection) : List Byte :=
  le32 l.dHead ++ le32 l.dSaw ++ le32 l.scanPitch ++ le32 l.scaleA ++ le32 l.scaleB ++ le32 l.weldLead ++ le32 l.weldLength
    ++ le32 l.stopMargin ++ [gradeCode l.stopSeverity] ++ le32 l.noseCrop ++ le32 l.tailCrop ++ le32 l.minLength
    ++ le32 l.mergeGap ++ le32 l.blindLimit ++ [gradeCode l.blindSeverity] ++ le32 l.lineWait

/-- The canonical content of a card (R143). -/
def canonical (c : Card) : List Byte :=
  le32 c.die ++ le32 c.revision ++ le32 c.alloy ++ le32 c.strands
    ++ c.heads.toList.flatMap contentOfHead
    ++ c.curves.toList.flatMap (fun v => v.toList.flatMap leInt)
    ++ c.features.toList.flatMap contentOfFeature
    ++ contentOfThermal c.thermal ++ contentOfLine c.line

/-- The card digest (R143). -/
def digestOf (c : Card) : Word32 := crc32 (canonical c)

end Sys2Proof.Machine
end

