-- ==== Sys2Proof/Machine/Content.lean ====
section
/-! DEFINITION. The reading of a card's canonical content (R143): the card whose canonical form a list of bytes is. Each reader
takes its field off the front of the bytes and gives the rest; the order of the fields is that of Machine/Digest.lean. -/

namespace Sys2Proof.Machine

/-- A reader: from the bytes, the value at their front and the bytes after it, or nothing. -/
abbrev Reader := StateT (List Byte) Option

/-- A 4-byte word. -/
def readWord : Reader Word32
  | a :: b :: c :: d :: rest => some (d ++ c ++ b ++ a, rest)
  | _ => none

/-- An unsigned numeric field. -/
def readNat : Reader Nat := BitVec.toNat <$> readWord

/-- A signed numeric field. -/
def readInt : Reader Int := BitVec.toInt <$> readWord

/-- A numeric field below `n`. -/
def readBelow (n : Nat) : Reader (Fin n) := do
  let x ← readNat
  if h : x < n then return ⟨x, h⟩ else failure

/-- A yes-or-no field. -/
def readYesNo : Reader Bool
  | 0 :: rest => some (false, rest)
  | 1 :: rest => some (true, rest)
  | _ => none

/-- A severity. -/
def readGrade : Reader Grade
  | 0 :: rest => some (.minor, rest)
  | 1 :: rest => some (.major, rest)
  | _ => none

/-- A feature kind. -/
def readKind : Reader FeatureKind
  | 0 :: rest => some (.span, rest)
  | 1 :: rest => some (.level, rest)
  | 2 :: rest => some (.gap, rest)
  | 3 :: rest => some (.flat, rest)
  | _ => none

/-- `n` fields of one kind in a row. -/
def readList {α : Type} (f : Reader α) : Nat → Reader (List α)
  | 0 => return []
  | n + 1 => do
      let x ← f
      let xs ← readList f n
      return x :: xs

/-- A table of `n` fields of one kind. -/
def readVector {α : Type} (f : Reader α) (n : Nat) : Reader (Vector α n) := do
  let xs ← readList f n
  if h : xs.length = n then return ⟨xs.toArray, h⟩ else failure

/-- A head record (R1). -/
def readHead : Reader HeadRecord := do
  let enabled ← readYesNo
  let strand ← readBelow 4
  let position ← readBelow 4
  let mirrorColumn ← readYesNo
  let mirrorRange ← readYesNo
  let swap ← readYesNo
  let c0 ← readNat
  let pitch ← readNat
  let offU ← readInt
  let offV ← readInt
  let minPoints ← readNat
  let dark ← readNat
  let bright ← readNat
  return { enabled, strand, position, mirrorColumn, mirrorRange, swap, c0, pitch, offU, offV, minPoints, dark, bright }

/-- A position and its window. -/
def readPlace : Reader Place := do
  let position ← readBelow 4
  let first ← readNat
  let last ← readNat
  return { position, window := { first, last } }

/-- Position B and window B, there for a GAP only. -/
def readPlaceB (kind : FeatureKind) : Reader (Option Place) := if kind = .gap then some <$> readPlace else return none

/-- The six limits (R69). -/
def readLimits : Reader Limits := do
  let nominal ← readInt
  let lower ← readInt
  let upper ← readInt
  let kOpen ← readNat
  let kClose ← readNat
  let severity ← readGrade
  return { nominal, lower, upper, kOpen, kClose, severity }

/-- A present feature record after its presence byte (R69). -/
def readPresent : Reader Feature := do
  let featureId ← readNat
  let kind ← readKind
  let placeA ← readPlace
  let placeB ← readPlaceB kind
  let minPoints ← readNat
  let trended ← readYesNo
  let limits ← readLimits
  return { featureId, kind, placeA, placeB, minPoints, trended, limits }

/-- A feature record with its presence byte. -/
def readFeature : Reader (Option Feature) := do if ← readYesNo then some <$> readPresent else return none

/-- The thermal section (R62). -/
def readThermal : Reader ThermalSection := do
  let u0 ← readNat
  let u1 ← readNat
  let u2 ← readNat
  let k0 ← readNat
  let k1 ← readNat
  let k2 ← readNat
  let k3 ← readNat
  let hysteresis ← readNat
  let defaultTemp ← readNat
  let hold ← readNat
  return { u0, u1, u2, k0, k1, k2, k3, hysteresis, defaultTemp, hold }

/-- The line section (R136). -/
def readLine : Reader LineSection := do
  let dHead ← readNat
  let dSaw ← readNat
  let scanPitch ← readNat
  let scaleA ← readNat
  let scaleB ← readNat
  let weldLead ← readNat
  let weldLength ← readNat
  let stopMargin ← readNat
  let stopSeverity ← readGrade
  let noseCrop ← readNat
  let tailCrop ← readNat
  let minLength ← readNat
  let mergeGap ← readNat
  let blindLimit ← readNat
  let blindSeverity ← readGrade
  let lineWait ← readNat
  return { dHead, dSaw, scanPitch, scaleA, scaleB, weldLead, weldLength, stopMargin, stopSeverity, noseCrop, tailCrop, minLength,
            mergeGap, blindLimit, blindSeverity, lineWait }

/-- A card, section by section in the order of R143. -/
def readWhole : Reader Card := do
  let die ← readNat
  let revision ← readNat
  let alloy ← readNat
  let strands ← readNat
  let heads ← readVector readHead 8
  let curves ← readVector (readVector readInt 17) 8
  let features ← readVector readFeature 32
  let thermal ← readThermal
  let line ← readLine
  return { die, revision, alloy, strands, heads, curves, features, thermal, line }

/-- The card whose canonical form the bytes are, if they are that of a card (R143, R144). -/
def cardOfContent (bs : List Byte) : Option Card :=
  match readWhole.run bs with
  | some (c, _) => if c.inRange && canonical c == bs then some c else none
  | none => none

end Sys2Proof.Machine
end

