-- ==== Sys2Proof/Config.lean ====
section
/-! DEFINITION. The free values of the model: constants with no body, so that no proof can see what they are. -/

namespace Sys2Proof

/-- FREE VALUE (log entry 8). The working card that a load takes from a bank whose bytes are no card's canonical form and yet
give the bank's digest. R145 and R150 carry such a load out and do not state the card. A value outside the
ranges of R134 stands for the empty card (Machine/Resets.lean). -/
opaque Config.foreignCard : List Byte → Card

/-- FREE VALUE (log entry 9). The severity of a DIMENSION zone whose feature is absent from the working card. R105 and
R116 take the severity from the feature's limits, and state none where there are no limits. -/
opaque Config.absentFeatureSeverity : Fin 32 → Severity

end Sys2Proof
end

