-- ==== Sys2Proof/Machine/State.lean ====
section
/-! DEFINITION. The state of the part as plain data: what each of its nine blocks holds (00_scope, The part in outline), the
queue of waiting commands, the clock and the supply; the faults and the refusals; the state after reset. -/

namespace Sys2Proof.Machine

/-- DISTANCE or HALT (R23). -/
inductive TriggerMode where
  | distance
  | halt
deriving DecidableEq, Repr

/-- What the travel unit holds (R17, R20, R23, R29). Travels, deficits, pitches and the remainder are in µm. -/
structure TravelUnit where
  active    : Puller
  deficitA  : Nat
  deficitB  : Nat
  travel    : Nat
  mode      : TriggerMode
  pitch     : Nat
  nextPitch : Option Nat
  remainder : Nat
  cuts      : List Nat
deriving DecidableEq, Repr

/-- Skips: a count from 1 to 65535 and the first skipped coordinate (R36, R39). -/
structure Skips where
  count : Nat
  first : Int
deriving DecidableEq, Repr

/-- One line in a slot: its head, its peak intensity and its raw codes (R34, R36). -/
structure Line where
  head  : Fin 8
  peak  : Nat
  codes : List Nat
deriving DecidableEq, Repr

/-- What a slot captures of one strand: temperature, band, and whether the strand is in FALLBACK (R36, R64). -/
structure Capture where
  temperature : Nat
  band        : Fin 4
  fallback    : Bool
deriving DecidableEq, Repr, Inhabited

/-- The states of a slot that is not FREE (R36). -/
inductive Phase where
  | waiting
  | closed
  | evaluating
deriving DecidableEq, Repr

/-- The record of a slot that is not FREE (R36); `waiting` is OPEN. The received head set is that of the lines. -/
structure Slot where
  phase    : Phase
  number   : Nat
  x        : Int
  manual   : Bool
  capture  : Vector Capture 4
  expected : List (Fin 8)
  lines    : List Line
  deadline : Nat
  skips    : Option Skips
deriving DecidableEq, Repr

/-- The states of a head (R48). -/
inductive HeadState where
  | offline
  | ok
  | fault
  | blinded
deriving DecidableEq, Repr

/-- The check results of a head, in the order of R54. -/
inductive CheckResult where
  | none
  | pending
  | pass
  | noLine
  | dark
  | bright
  | sparse
deriving DecidableEq, Repr

/-- The valid-point count and the peak intensity of the last line accepted from a head (R48). -/
structure LastLine where
  valid : Nat
  peak  : Nat
deriving DecidableEq, Repr

/-- One entry of the head table (R48). -/
structure HeadEntry where
  state    : HeadState
  miss     : Nat
  sparse   : Nat
  lastLine : Option LastLine
  check    : CheckResult
deriving DecidableEq, Repr

/-- A head check in flight: the heads it names and the deadline of its 200 ms limit (R51). -/
structure HeadCheck where
  mask     : Byte
  deadline : Nat
deriving DecidableEq, Repr

/-- What the scan assembler holds (R35, R36, R39, R48, R51). A FREE slot is `none`. `headTx` is the model's own log of the
frames sent on the head link (R33; log entry 19). -/
structure ScanAssembler where
  nextNumber : Nat
  slots      : Vector (Option Slot) 4
  skips      : Option Skips
  heads      : Vector HeadEntry 8
  check      : Option HeadCheck
  headTx     : List (List Byte)
deriving DecidableEq, Repr

/-- What the thermal unit holds for one strand (R56): `timer` is the deadline of a running hold timer. -/
structure ThermalRecord where
  temperature : Nat
  band        : Fin 4
  fallback    : Bool
  timer       : Option Nat
deriving DecidableEq, Repr

/-- An out run in progress: its count, out start, run sides and run worst (R80). -/
structure OutRun where
  count : Nat
  start : Int
  sides : Sides
  worst : Worst
deriving DecidableEq, Repr

/-- A count of scans in progress and the coordinate of its first scan: an in run with close at, or a miss run with miss
start (R80). -/
structure ScanRun where
  count : Nat
  start : Int
deriving DecidableEq, Repr

/-- An open DIMENSION zone as the engine knows it: zone start and zone worst (R80). -/
structure EngineZone where
  start : Int
  worst : Worst
deriving DecidableEq, Repr

/-- A persistence record (R80). A run is `none` while its count is 0; dimension open is whether `zone` is present. -/
structure Persistence where
  out   : Option OutRun
  inRun : Option ScanRun
  miss  : Option ScanRun
  zone  : Option EngineZone
  blind : Bool
deriving DecidableEq, Repr

/-- The results of a feature (R79), in the order of R88. -/
inductive Class where
  | inside
  | low
  | high
deriving DecidableEq, Repr

/-- The result of a present feature on a strand in a slot: MISSING, or a class with h and w (R79, R88). -/
inductive FeatureResult where
  | missing
  | found (cls : Class) (h w : Int)
deriving DecidableEq, Repr

/-- A last-results record that is not empty (R88). A feature that was absent is `none`. -/
structure LastResults where
  number      : Nat
  x           : Int
  temperature : Nat
  band        : Fin 4
  manual      : Bool
  features    : Vector (Option FeatureResult) 32
deriving DecidableEq, Repr

/-- The evaluation in hand (R74, R90): its slot, the card as read at its start, whether it is a track evaluation, and the
strands still to be evaluated. -/
structure Evaluation where
  slot  : Fin 4
  card  : Card
  track : Bool
  todo  : List (Fin 4)
deriving DecidableEq, Repr

/-- What the section engine holds (R75, R80, R88, R90). `sent` are the events it has sent and the tracker has not yet
taken, oldest first (R86; log entry 5). -/
structure SectionEngine where
  stale       : Vector Bool 4
  persistence : Vector (Vector Persistence 32) 4
  last        : Vector (Option LastResults) 4
  evaluation  : Option Evaluation
  sent        : List TrackerEvent
deriving DecidableEq, Repr

/-- The press states (R91). -/
inductive Press where
  | idle
  | running
  | stopped
  | ending
deriving DecidableEq, Repr

/-- The strand states, in the order of R92. -/
inductive StrandState where
  | absent
  | idle
  | nose
  | running
  | tailing
  | ended
deriving DecidableEq, Repr

/-- The trended extremes of one feature (R92). -/
structure Extreme where
  least    : Option Int
  greatest : Option Int
  missing  : Nat
deriving DecidableEq, Repr

/-- A present DIMENSION entry of the open-zone table (R102). -/
structure OpenDimension where
  number : Nat
  start  : Int
  sides  : Sides
  worst  : Worst
deriving DecidableEq, Repr

/-- A present BLIND entry of the open-zone table (R102). -/
structure OpenBlind where
  number : Nat
  start  : Int
deriving DecidableEq, Repr

/-- The classes of a zone, in the order of R106. -/
inductive ZoneClass where
  | dimension
  | blind
  | weld
  | stop
  | merged
deriving DecidableEq, Repr

/-- A set of source classes (R106). -/
structure Sources where
  dimension : Bool
  blind     : Bool
  weld      : Bool
  stop      : Bool
deriving DecidableEq, Repr

/-- An entry of the closed-zone list, covering the coordinates from `start` up to but not including `finish` (R106); also
a candidate of a length (R124). -/
structure ClosedZone where
  number   : Nat
  cls      : ZoneClass
  feature  : Option (Fin 32)
  severity : Severity
  start    : Int
  finish   : Int
  sides    : Option Sides
  worst    : Option Worst
  billet   : Option Nat
  sources  : Sources
deriving DecidableEq, Repr

/-- A strand record (R92, R66, R102, R106). -/
structure Strand where
  state        : StrandState
  nose         : Int
  tail         : Option Int
  lastCut      : Int
  billet       : Nat
  lowerBillet  : Nat
  lengthIndex  : Nat
  nextZone     : Nat
  cutLost      : Bool
  fallbackMark : Bool
  tempSum      : Nat
  scanCount    : Nat
  extremes     : Vector Extreme 32
  dimensions   : Vector (Option OpenDimension) 32
  blinds       : Vector (Option OpenBlind) 32
  closed       : List ClosedZone
deriving DecidableEq, Repr

/-- What the strand tracker holds (R91, R92). `reports` lost-cut reports have reached it and wait; `reportsDue` more arrived
while an earlier cut was being taken and come before the next cut (R30; log entry 6). -/
structure Tracker where
  press      : Press
  strands    : Vector Strand 4
  reports    : Nat
  reportsDue : Nat
deriving DecidableEq, Repr

/-- The verdicts of a length (R126). -/
inductive Verdict where
  | accept
  | reject
  | nose
  | tail
  | short
deriving DecidableEq, Repr

/-- The failsafe state (R130). -/
inductive Failsafe where
  | normal
  | failsafe
deriving DecidableEq, Repr

/-- What the verdict unit holds (R129, R130); a last verdict of NONE is `none`. -/
structure VerdictUnit where
  failsafe : Failsafe
  last     : Vector (Option Verdict) 4
deriving DecidableEq, Repr

/-- A set of reasons (R127). -/
structure Reasons where
  dimension : Bool
  blind     : Bool
  weld      : Bool
  stop      : Bool
  cropSpan  : Bool
  failsafe  : Bool
  cutLost   : Bool
  withdrawn : Bool
  aborted   : Bool
deriving DecidableEq, Repr

/-- A trend entry of a length record (R123). -/
structure TrendEntry where
  feature : Fin 32
  extreme : Extreme
deriving DecidableEq, Repr

/-- A length record (R120). -/
structure LengthRecord where
  sequence    : Nat
  strand      : Fin 4
  index       : Nat
  lower       : Int
  upper       : Int
  hot         : Int
  cold        : Int
  tMean       : Nat
  fallback    : Bool
  verdict     : Verdict
  reasons     : Reasons
  firstBillet : Nat
  lastBillet  : Nat
  digest      : Word32
  trends      : List TrendEntry
  zones       : List ClosedZone
  omitted     : Nat
deriving DecidableEq, Repr

/-- The overflow tally (R167). -/
structure Tally where
  lengths : Nat
  rejects : Nat
  millis  : Nat
deriving DecidableEq, Repr

/-- The nine counters, in the order of R176. -/
structure Counters where
  linkCrc     : Nat
  overrun     : Nat
  lineCrc     : Nat
  duplicate   : Nat
  lateLine    : Nat
  skipped     : Nat
  lateResult  : Nat
  coarsening  : Nat
  lostCut     : Nat
deriving DecidableEq, Repr

/-- What the report unit holds (R121, R167, R170, R172, R174, R176). Bit `i` of the flags and of the mask is the flag of
bit `i` in the STATUS layout (R164). -/
structure ReportUnit where
  nextSequence : Nat
  queue        : List LengthRecord
  tally        : Tally
  latches      : Vector (Option LastResults) 4
  flags        : BitVec 11
  mask         : BitVec 11
  counters     : Counters
deriving DecidableEq, Repr

/-- The lock states of a bank, in rising order (R149). -/
inductive Lock where
  | unlocked
  | held
  | fixed
deriving DecidableEq, Repr

/-- What the memory of a bank holds: the canonical form of a card, or other bytes (R144, R147; log entry 15). -/
inductive BankContent where
  | card (c : Card)
  | bytes (bs : List Byte)
deriving DecidableEq, Repr

/-- A card bank: its content and its record (R144); the lock `unlocked` is OPEN. -/
structure Bank where
  content    : BankContent
  valid      : Bool
  die        : Nat
  revision   : Nat
  digest     : Word32
  lock       : Lock
  storeCount : Nat
deriving DecidableEq, Repr

/-- A store in flight: its bank, the copy of the card and the copy's digest (R144, R146). -/
structure StoreJob where
  bank   : Fin 8
  copy   : Card
  digest : Word32
deriving DecidableEq, Repr

/-- The bank engine (R144). -/
inductive BankEngine where
  | idle
  | storing (job : StoreJob)
  | suspended (job : StoreJob)
deriving DecidableEq, Repr

/-- The last store outcome with its bank (R144). -/
inductive StoreOutcome where
  | none
  | done (bank : Fin 8)
  | fail (bank : Fin 8)
deriving DecidableEq, Repr

/-- What the card store holds (R134, R140, R143, R144, R150). The pending-limits list holds at most one entry per feature:
the entry of feature f is `pendingLimits[f]`. -/
structure CardStore where
  card          : Card
  digest        : Word32
  pendingLimits : Vector (Option Limits) 32
  banks         : Vector Bank 8
  boot          : Option (Fin 8)
  engine        : BankEngine
  lastOutcome   : StoreOutcome
deriving DecidableEq, Repr

/-- The refusal reasons, with NOT_LATCHED, which marks a reply (R159). -/
inductive Reason where
  | unknownKind
  | badLength
  | badValue
  | state
  | running
  | busy
  | isProtected
  | bankEmpty
  | bankCrc
  | notReady
  | notLatched
  | sequence
deriving DecidableEq, Repr

/-- The status of a reply (R158). -/
inductive ReplyStatus where
  | ok
  | clamped
  | deferred
  | refused
deriving DecidableEq, Repr

/-- The payload of a reply: status, reason and the fields that follow (R158). -/
structure ReplyBody where
  status : ReplyStatus
  reason : Option Reason
  fields : List Byte
deriving DecidableEq, Repr

/-- A reply: its kind byte (R154) and its payload. -/
structure Reply where
  kind : Byte
  body : ReplyBody
deriving DecidableEq, Repr

/-- The framing receiver: HUNT, or FRAME with the bytes received after the start byte (R155). -/
inductive Receiver where
  | hunt
  | frame (got : List Byte)
deriving DecidableEq, Repr

/-- The request in service: its kind byte and, where the link port has passed it to a block, the command that serves it
(R156, R157). -/
structure Service where
  kind    : Byte
  request : Option Instr
deriving DecidableEq, Repr

/-- What the link port holds (R153, R155, R156, R158, R160). `driver` is whether the part's driver is on, sending a reply (R153;
log entry 7). `tx` is the model's own log of the frames sent on the link (log entry 19). -/
structure LinkPort where
  straps   : Straps
  receiver : Receiver
  service  : Option Service
  reply    : Option Reply
  driver   : Bool
  interval : Nat
  deadline : Option Nat
  tx       : List (List Byte)
deriving DecidableEq, Repr

/-- The whole machine. `pending` is the queue of waiting commands, first in, first out (log entry 1); `powered` whether the
part has supply; `now` the clock that deadlines are counted on, in ms (log entry 2). -/
structure State where
  pending : List Instr
  powered : Bool
  now     : Nat
  runout  : TravelUnit
  scan    : ScanAssembler
  thermal : Vector ThermalRecord 4
  engine  : SectionEngine
  tracker : Tracker
  verdict : VerdictUnit
  report  : ReportUnit
  store   : CardStore
  link    : LinkPort
deriving DecidableEq, Repr

/-- The faults of the machine. There is none: no rule of the spec stops the part, so no meaning ends in a fault (NOTES.md,
Stops). -/
inductive Fault where
deriving DecidableEq, Repr

/-- The refusals of the machine. -/
inductive Refusal where
  /-- Raised only by an arm of `exec` whose command has no meaning yet; safe, since nothing follows it. No arm does. -/
  | notModelled (mnemonic : String)
deriving DecidableEq, Repr

/-- A cleared persistence record (R80). -/
def Persistence.clear : Persistence := { out := none, inRun := none, miss := none, zone := none, blind := false }

/-- An empty trended extreme (R118). -/
def Extreme.empty : Extreme := { least := none, greatest := none, missing := 0 }

/-- A strand record in state `st` with the billet numbers at `billet`: its values at power-on and RESTART with 0, at an
accepted RUN_START with 1 (R92). -/
def Strand.fresh (st : StrandState) (billet : Nat) : Strand :=
  { state := st, nose := 0, tail := none, lastCut := 0, billet := billet, lowerBillet := billet, lengthIndex := 1, nextZone := 1,
    cutLost := false, fallbackMark := false, tempSum := 0, scanCount := 0,
    extremes := Vector.replicate 32 Extreme.empty, dimensions := Vector.replicate 32 none, blinds := Vector.replicate 32 none,
    closed := [] }

/-- A bank that has never been stored (R144); its content is no bytes (log entry 3). -/
def Bank.neverStored : Bank :=
  { content := .bytes [], valid := false, die := 0, revision := 0, digest := 0, lock := .unlocked, storeCount := 0 }

/-- The counters at power-on (R176). -/
def Counters.zero : Counters :=
  { linkCrc := 0, overrun := 0, lineCrc := 0, duplicate := 0, lateLine := 0, skipped := 0, lateResult := 0, coarsening := 0, lostCut := 0 }

/-- The overflow tally at power-on (R167). -/
def Tally.zero : Tally := { lengths := 0, rejects := 0, millis := 0 }

/-- The machine right after reset: powered on for the first time, with no bank stored and no boot bank set, so with the
empty card (R20, R23, R32, R35, R36, R39, R48, R53, R56, R75, R80, R88, R91, R92, R121, R129, R130, R140, R144, R150, R153, R155,
R160, R167, R170, R172, R174, R176). The levels of the straps and of PULLER SELECT are low (log entry 3). Nothing waits. -/
def State.reset : State :=
  { pending := [], powered := true, now := 0,
    runout := { active := .a, deficitA := 0, deficitB := 0, travel := 0, mode := .distance, pitch := 1000, nextPitch := none,
                remainder := 0, cuts := [] },
    scan := { nextNumber := 0, slots := Vector.replicate 4 none, skips := none,
              heads := Vector.replicate 8 { state := .offline, miss := 0, sparse := 0, lastLine := none, check := .none },
              check := none, headTx := [] },
    thermal := Vector.replicate 4 { temperature := 2000, band := 3, fallback := false, timer := none },
    engine := { stale := Vector.replicate 4 false, persistence := Vector.replicate 4 (Vector.replicate 32 Persistence.clear),
                last := Vector.replicate 4 none, evaluation := none, sent := [] },
    tracker := { press := .idle, strands := Vector.replicate 4 (Strand.fresh .absent 0), reports := 0, reportsDue := 0 },
    verdict := { failsafe := .normal, last := Vector.replicate 4 none },
    report := { nextSequence := 0, queue := [], tally := Tally.zero, latches := Vector.replicate 4 none, flags := 1, mask := 0,
                counters := Counters.zero },
    store := { card := Card.empty, digest := digestOf Card.empty, pendingLimits := Vector.replicate 32 none,
               banks := Vector.replicate 8 Bank.neverStored, boot := none, engine := .idle, lastOutcome := .none },
    link := { straps := { addr0 := false, addr1 := false, rate := false }, receiver := .hunt, service := none, reply := none,
              driver := false, interval := 0, deadline := none, tx := [] } }

end Sys2Proof.Machine
end

