-- ==== Sys2Proof/Machine/Flags.lean ====
section
/-! DEFINITION. The sticky flags, the nine counters and the output lines: every flag's bit, how it is set, cleared and
masked (R172 to R175), how a counter grows (R176), and the levels of the REJECT and ALARM lines (R129, R175). -/

namespace Sys2Proof.Machine

/-- The eleven sticky flags (R172). -/
inductive Flag where
  | powerOn
  | headFault
  | thermalFallback
  | trackCoarsened
  | queueOverflow
  | linkError
  | bankError
  | protectedAccess
  | lateData
  | skippedTrigger
  | checkDone
deriving DecidableEq, Repr

/-- The bit of a flag in the STATUS layout (R164). -/
def Flag.place : Flag → Nat
  | .powerOn => 0
  | .headFault => 1
  | .thermalFallback => 2
  | .trackCoarsened => 3
  | .queueOverflow => 4
  | .linkError => 5
  | .bankError => 6
  | .protectedAccess => 7
  | .lateData => 8
  | .skippedTrigger => 9
  | .checkDone => 10

/-- The mask of a flag alone. -/
def Flag.bit (f : Flag) : BitVec 11 := BitVec.twoPow 11 f.place

/-- The flag is set. -/
def ReportUnit.has (r : ReportUnit) (f : Flag) : Bool := r.flags.getLsbD f.place

/-- Sets a flag (R172). -/
def ReportUnit.raise (f : Flag) (r : ReportUnit) : ReportUnit := { r with flags := r.flags ||| f.bit }

/-- Clears a flag (R172, R173). -/
def ReportUnit.lower (f : Flag) (r : ReportUnit) : ReportUnit := { r with flags := r.flags &&& ~~~f.bit }

/-- Sets a flag when `b` holds. -/
def ReportUnit.raiseIf (b : Bool) (f : Flag) (r : ReportUnit) : ReportUnit := if b then r.raise f else r

/-- A link-CRC error is counted and sets LINK_ERROR (R155). -/
def ReportUnit.countLinkCrc (r : ReportUnit) : ReportUnit :=
  ({ r with counters := { r.counters with linkCrc := bump16 r.counters.linkCrc } } : ReportUnit).raise .linkError

/-- A link overrun is counted and sets LINK_ERROR (R156). -/
def ReportUnit.countOverrun (r : ReportUnit) : ReportUnit :=
  ({ r with counters := { r.counters with overrun := bump16 r.counters.overrun } } : ReportUnit).raise .linkError

/-- A line-CRC error is counted (R34). -/
def ReportUnit.countLineCrc (r : ReportUnit) : ReportUnit :=
  { r with counters := { r.counters with lineCrc := bump16 r.counters.lineCrc } }

/-- A duplicate line is counted (R40, R52). -/
def ReportUnit.countDuplicate (r : ReportUnit) : ReportUnit :=
  { r with counters := { r.counters with duplicate := bump16 r.counters.duplicate } }

/-- A late line is counted and sets LATE_DATA (R40, R52). -/
def ReportUnit.countLateLine (r : ReportUnit) : ReportUnit :=
  ({ r with counters := { r.counters with lateLine := bump16 r.counters.lateLine } } : ReportUnit).raise .lateData

/-- A skipped trigger is counted and sets SKIPPED_TRIGGER (R38). -/
def ReportUnit.countSkipped (r : ReportUnit) : ReportUnit :=
  ({ r with counters := { r.counters with skipped := bump16 r.counters.skipped } } : ReportUnit).raise .skippedTrigger

/-- A late result is counted and sets LATE_DATA (R103, R105, R109, R110, R111). -/
def ReportUnit.countLateResult (r : ReportUnit) : ReportUnit :=
  ({ r with counters := { r.counters with lateResult := bump16 r.counters.lateResult } } : ReportUnit).raise .lateData

/-- A coarsening is counted and sets TRACK_COARSENED (R108). -/
def ReportUnit.countCoarsening (r : ReportUnit) : ReportUnit :=
  ({ r with counters := { r.counters with coarsening := bump16 r.counters.coarsening } } : ReportUnit).raise .trackCoarsened

/-- A lost cut is counted (R30). -/
def ReportUnit.countLostCut (r : ReportUnit) : ReportUnit :=
  { r with counters := { r.counters with lostCut := bump16 r.counters.lostCut } }

/-- The REJECT line of a strand is asserted (R129); a line loses its assertion when supply fails (00_scope, Field connections). -/
def State.rejectLine (s : State) (i : Fin 4) : Bool :=
  s.powered && (s.verdict.failsafe == .failsafe || s.verdict.last[i] != some .accept)

/-- The ALARM line is asserted (R175). -/
def State.alarmLine (s : State) : Bool :=
  s.powered && ((s.report.flags &&& ~~~s.report.mask) != 0 || s.verdict.failsafe == .failsafe)

end Sys2Proof.Machine
end

