-- ==== Sys2Proof/Machine/Geometry.lean ====
section
/-! DEFINITION. The section geometry: valid points, the linearization curve, orientation and offset, windows (R2, R6 to R14). -/

namespace Sys2Proof.Machine

/-- A raw code is a valid point (R6). -/
def validCode (r : Nat) : Bool := decide (1 ≤ r ∧ r ≤ 65534)

/-- The valid-point count of a line (R7). -/
def validCount (codes : List Nat) : Nat := codes.countP validCode

/-- The linearized range z of a raw code on a curve (R8, R9). -/
def linearize (curve : Vector Int 17) (r : Nat) : Int :=
  let low := curve.toList.getD (r / 4096) 0
  let high := curve.toList.getD (r / 4096 + 1) 0
  low + roundDiv ((high - low) * ((r % 4096 : Nat) : Int)) 4096

/-- The column coordinate x of a column (R10). -/
def columnCoordinate (h : HeadRecord) (column : Nat) : Int := ((column : Int) - (h.c0 : Int)) * (h.pitch : Int)

/-- The oriented pair (u', v') of x and z (R11). -/
def orient (h : HeadRecord) (x z : Int) : Int × Int :=
  let a := if h.mirrorColumn then -x else x
  let b := if h.mirrorRange then -z else z
  if h.swap then (b, a) else (a, b)

/-- The point (u, v) in the section frame (R12). -/
def framePoint (h : HeadRecord) (curve : Vector Int 17) (column r : Nat) : Int × Int :=
  let p := orient h (columnCoordinate h column) (linearize curve r)
  (p.1 + h.offU, p.2 + h.offV)

/-- The head serves a position of a strand (R2). -/
def servesAt (h : HeadRecord) (strand position : Fin 4) : Bool :=
  h.enabled && h.strand == strand && h.position == position

/-- The head that serves a position of a strand, if any (R2). -/
def servingHead (c : Card) (strand position : Fin 4) : Option (Fin 8) :=
  headsInOrder.find? fun i => servesAt c.heads[i] strand position

/-- The points of a line that a window keeps, converted, by column ascending (R14); `column` is the column of the first code. -/
def pointsFrom (h : HeadRecord) (curve : Vector Int 17) (w : Window) (column : Nat) : List Nat → List (Int × Int)
  | [] => []
  | r :: rest =>
      let more := pointsFrom h curve w (column + 1) rest
      if decide (w.first ≤ column ∧ column ≤ w.last) && validCode r then framePoint h curve column r :: more else more

/-- A window's point set on a strand in a slot that holds `lines` (R14). -/
def pointSet (c : Card) (lines : List Line) (strand : Fin 4) (p : Place) : List (Int × Int) :=
  match servingHead c strand p.position with
  | none => []
  | some i =>
      match lines.find? (fun l => l.head == i) with
      | none => []
      | some l => pointsFrom c.heads[i] c.curves[i] p.window 0 l.codes

end Sys2Proof.Machine
end

