-- ==== Sys2Proof/Machine/Thermal.lean ====
section
/-! DEFINITION. The thermal unit: plain lookup and the revision of a band (R60, R61), samples, hold and fallback (R56, R58,
R59), the taking of a new thermal section (R63), and the coefficient of a band (R65, R67). -/

namespace Sys2Proof.Machine

/-- Plain lookup of a temperature: the smallest band whose bound lies above it, U3 being infinite (R61). -/
def plainBand (t : ThermalSection) (temperature : Nat) : Fin 4 :=
  if temperature < t.u0 then 0 else if temperature < t.u1 then 1 else if temperature < t.u2 then 2 else 3

/-- The bound U_b of a band, `none` for the infinite U3 (R60). -/
def bandBound (t : ThermalSection) (b : Nat) : Option Nat :=
  match b with
  | 0 => some t.u0
  | 1 => some t.u1
  | 2 => some t.u2
  | _ => none

/-- The temperature has reached the bound U_b; it never reaches the infinite U3. -/
def reaches (t : ThermalSection) (temperature b : Nat) : Bool :=
  match bandBound t b with
  | some u => decide (u ≤ temperature)
  | none => false

/-- The band after a revision from band `b` at a new temperature (R60). -/
def reviseBand (t : ThermalSection) (b : Fin 4) (temperature : Nat) : Fin 4 :=
  if reaches t temperature b.val then plainBand t temperature
  else if decide (0 < b.val) && !reaches t (temperature + t.hysteresis) (b.val - 1) then plainBand t (temperature + t.hysteresis)
  else b

/-- The coefficient k of a band (R62). -/
def coefficient (t : ThermalSection) (b : Fin 4) : Nat :=
  match b.val with
  | 0 => t.k0
  | 1 => t.k1
  | 2 => t.k2
  | _ => t.k3

/-- A hold timer started at `now`, when the hold time is above 0 (R56, R58). -/
def holdTimer (t : ThermalSection) (now : Nat) : Option Nat := if t.hold = 0 then none else some (now + t.hold)

/-- The record of a strand at power-on or RESTART (R56). -/
def ThermalRecord.fresh (t : ThermalSection) (now : Nat) : ThermalRecord :=
  { temperature := t.defaultTemp, band := plainBand t t.defaultTemp, fallback := false, timer := holdTimer t now }

/-- A valid sample of a temperature (R58). -/
def ThermalRecord.sample (t : ThermalSection) (now temperature : Nat) (r : ThermalRecord) : ThermalRecord :=
  { temperature := temperature,
    band := if temperature = r.temperature then r.band else reviseBand t r.band temperature,
    fallback := false, timer := holdTimer t now }

/-- Entry into FALLBACK (R59). -/
def ThermalRecord.enterFallback (t : ThermalSection) (r : ThermalRecord) : ThermalRecord :=
  { temperature := t.defaultTemp, band := reviseBand t r.band t.defaultTemp, fallback := true, timer := none }

/-- A strand takes a new thermal section (R63). -/
def ThermalRecord.takeSection (t : ThermalSection) (now : Nat) (r : ThermalRecord) : ThermalRecord :=
  let temperature := if r.fallback then t.defaultTemp else r.temperature
  { temperature := temperature, band := plainBand t temperature, fallback := r.fallback,
    timer := if t.hold = 0 then none
             else match r.timer with
               | some d => some d
               | none => if r.fallback then none else some (now + t.hold) }

/-- What a slot captures of a strand (R64). -/
def ThermalRecord.capture (r : ThermalRecord) : Capture :=
  { temperature := r.temperature, band := r.band, fallback := r.fallback }

/-- The correction of a hot value at a coefficient and a temperature: round(h × k × (T − 200) / 10⁹) (R65, R67). -/
def correction (h : Int) (k temperature : Nat) : Int := roundDiv (h * (k : Int) * ((temperature : Int) - 200)) 1000000000

/-- The cold value of a hot value (R65, R67). -/
def coldValue (h : Int) (k temperature : Nat) : Int := h - correction h k temperature

end Sys2Proof.Machine
end

