-- ==== Sys2Proof/Machine/Evaluate.lean ====
section
/-! DEFINITION. Feature evaluation: window statistics (R76 to R78), classification (R79), persistence (R81 to R85), and what
one strand's evaluation in a slot gives (R86 to R88). -/

namespace Sys2Proof.Machine

/-- The greatest value of a set less the least (R77). -/
def spread : List Int → Int
  | [] => 0
  | x :: rest => rest.foldl max x - rest.foldl min x

/-- The rounded mean of a set (R77, LEVEL). -/
def levelOf (vs : List Int) : Int := roundDiv vs.sum vs.length

/-- The points of a window that is not MISSING (R76). -/
def windowPoints (c : Card) (lines : List Line) (strand : Fin 4) (minPoints : Nat) (p : Place) : Option (List (Int × Int)) :=
  let points := pointSet c lines strand p
  if points.length < minPoints then none else some points

/-- The hot value h of a feature on a strand, `none` when the result is MISSING (R76 to R78). -/
def hotValue (c : Card) (lines : List Line) (strand : Fin 4) (f : Feature) : Option Int :=
  match f.kind, windowPoints c lines strand f.minPoints f.placeA with
  | _, none => none
  | .span, some a => some (spread (a.map Prod.fst))
  | .level, some a => some (levelOf (a.map Prod.snd))
  | .flat, some a => some (spread (a.map Prod.snd))
  | .gap, some a =>
      match f.placeB with
      | none => none
      | some placeB =>
          match windowPoints c lines strand f.minPoints placeB with
          | none => none
          | some b => some (levelOf (b.map Prod.snd) - levelOf (a.map Prod.snd))

/-- The class of a cold value against limits (R79). -/
def classify (l : Limits) (w : Int) : Class :=
  if w < l.nominal + l.lower then .low else if l.nominal + l.upper < w then .high else .inside

/-- The excess of an out-of-tolerance cold value (R79). -/
def excessOf (l : Limits) (w : Int) : Int :=
  if w < l.nominal + l.lower then l.nominal + l.lower - w else w - (l.nominal + l.upper)

/-- The result of one feature of the card on a strand in a slot (R65, R76, R79); `none` for an absent feature. -/
def featureResult (c : Card) (slot : Slot) (strand : Fin 4) (f : Fin 32) : Option FeatureResult :=
  match c.features[f] with
  | none => none
  | some feature =>
      match hotValue c slot.lines strand feature with
      | none => some .missing
      | some h =>
          let w := coldValue h (coefficient c.thermal slot.capture[strand].band) slot.capture[strand].temperature
          some (.found (classify feature.limits w) h w)

/-- The sides seen after an out result on a side (R81, R104). -/
def joinSides : Sides → Sides → Sides
  | .low, .low => .low
  | .high, .high => .high
  | _, _ => .both

/-- A side as a set of sides. -/
def sideAsSides : Side → Sides
  | .low => .low
  | .high => .high

/-- `m` MISSING results from coordinate `q` on (R83 with m = 1, R85): the record after them, and the start of the BLIND
zone that they open. -/
def Persistence.miss_ (limit m : Nat) (q : Int) (p : Persistence) : Persistence × Option Int :=
  let run : ScanRun := match p.miss with
    | some r => { count := bump 255 r.count m, start := r.start }
    | none => { count := bump 255 0 m, start := q }
  if decide (0 < limit) && !p.blind && decide (limit ≤ run.count) then
    ({ p with miss := some run, blind := true }, some run.start)
  else ({ p with miss := some run }, none)

/-- The end that a close event carries: the coordinate, or start + 1 where it is not above the start (R84). -/
def closeEnd (start x : Int) : Int := if x ≤ start then start + 1 else x

/-- A result that is not MISSING ends the miss run (R84): the record after it, and the end of the BLIND zone it closes. -/
def Persistence.endMiss (x : Int) (p : Persistence) : Persistence × Option Int :=
  let finish := match p.miss with
    | some r => closeEnd r.start x
    | none => x
  ({ p with miss := none, blind := false }, if p.blind then some finish else none)

/-- What an out result reports of the DIMENSION zone (R81). -/
inductive OutReport where
  | opened (start : Int) (sides : Sides) (worst : Worst)
  | updated (worst : Option Worst)
  | nothing
deriving DecidableEq, Repr

/-- The out run after an out result of side `s` with excess and cold value `worst` at coordinate `x` (R81 steps 2 and 3). -/
def OutRun.extend (s : Side) (x : Int) (worst : Worst) : Option OutRun → OutRun
  | none => { count := 1, start := x, sides := sideAsSides s, worst := worst }
  | some r =>
      { count := bump 15 r.count 1, start := r.start, sides := joinSides r.sides (sideAsSides s),
        worst := if r.worst.excess < worst.excess then worst else r.worst }

/-- An out result (R81). -/
def Persistence.out_ (kOpen : Nat) (s : Side) (x : Int) (worst : Worst) (p : Persistence) : Persistence × OutReport :=
  let run := OutRun.extend s x worst p.out
  match p.zone with
  | none =>
      if kOpen ≤ run.count then
        ({ p with out := some run, inRun := none, zone := some { start := run.start, worst := run.worst } },
          .opened run.start run.sides run.worst)
      else ({ p with out := some run, inRun := none }, .nothing)
  | some z =>
      if z.worst.excess < worst.excess then
        ({ p with out := some run, inRun := none, zone := some { z with worst := worst } }, .updated (some worst))
      else ({ p with out := some run, inRun := none }, .updated none)

/-- An IN result (R82): the record after it, and the end of the DIMENSION zone it closes. -/
def Persistence.in_ (kClose : Nat) (x : Int) (p : Persistence) : Persistence × Option Int :=
  match p.zone with
  | none => ({ p with out := none }, none)
  | some z =>
      let run : ScanRun := match p.inRun with
        | some r => { count := bump 15 r.count 1, start := r.start }
        | none => { count := 1, start := x }
      if kClose ≤ run.count then ({ p with out := none, inRun := none, zone := none }, some (closeEnd z.start run.start))
      else ({ p with out := none, inRun := some run }, none)

/-- The events of an out report (R81). -/
def OutReport.events (strand : Fin 4) (f : Fin 32) (s : Side) : OutReport → List TrackerEvent
  | .opened start sides worst => [.start { strand := strand, feature := f, start := start, finding := .dimension sides worst }]
  | .updated worst => [.update { strand := strand, feature := f, side := s, worst := worst }]
  | .nothing => []

/-- A close event where a zone closes (R82, R84). -/
def closeEvents (strand : Fin 4) (f : Fin 32) (kind : ZoneKind) : Option Int → List TrackerEvent
  | some e => [.close { strand := strand, feature := f, kind := kind, finish := e }]
  | none => []

/-- A BLIND open event where a BLIND zone opens (R83, R85). -/
def blindEvents (strand : Fin 4) (f : Fin 32) : Option Int → List TrackerEvent
  | some start => [.start { strand := strand, feature := f, start := start, finding := .blind }]
  | none => []

/-- One feature's own result applied to its persistence record: the record after it and the events, BLIND before
DIMENSION (R81 to R84, R86). -/
def Persistence.result (strand : Fin 4) (f : Fin 32) (l : Limits) (blindLimit : Nat) (x : Int) (r : FeatureResult)
    (p : Persistence) : Persistence × List TrackerEvent :=
  match r with
  | .missing => let q := p.miss_ blindLimit 1 x; (q.1, blindEvents strand f q.2)
  | .found .inside _ _ =>
      let a := p.endMiss x
      let b := a.1.in_ l.kClose x
      (b.1, closeEvents strand f .blind a.2 ++ closeEvents strand f .dimension b.2)
  | .found .low _ w =>
      let a := p.endMiss x
      let b := a.1.out_ l.kOpen .low x { excess := excessOf l w, w := w }
      (b.1, closeEvents strand f .blind a.2 ++ b.2.events strand f .low)
  | .found .high _ w =>
      let a := p.endMiss x
      let b := a.1.out_ l.kOpen .high x { excess := excessOf l w, w := w }
      (b.1, closeEvents strand f .blind a.2 ++ b.2.events strand f .high)

/-- The carried skips of a slot applied to one feature's record (R85). -/
def skipsOn (c : Card) (slot : Slot) (strand : Fin 4) (f : Fin 32) (p : Persistence) : Persistence × List TrackerEvent :=
  match c.features[f], slot.skips with
  | some _, some k => let q := p.miss_ c.line.blindLimit k.count k.first; (q.1, blindEvents strand f q.2)
  | _, _ => (p, [])

/-- One feature's own result in a slot applied to its record (R81 to R84); an absent feature's record is left (R80). -/
def resultOn (c : Card) (slot : Slot) (strand : Fin 4) (f : Fin 32) (p : Persistence) : Persistence × List TrackerEvent :=
  match c.features[f], featureResult c slot strand f with
  | some feature, some r => p.result strand f feature.limits c.line.blindLimit slot.x r
  | _, _ => (p, [])

/-- The trended values of a scan event (R87). -/
def trendedValues (c : Card) (slot : Slot) (strand : Fin 4) : List TrendValue :=
  featuresInOrder.filterMap fun f =>
    match c.features[f], featureResult c slot strand f with
    | some feature, some r =>
        if feature.trended then
          some { feature := f, w := match r with
            | .missing => none
            | .found _ _ w => some w }
        else none
    | _, _ => none

/-- The scan event of a strand in a track slot (R87). -/
def scanEventOf (c : Card) (slot : Slot) (strand : Fin 4) : ScanEvent :=
  { strand := strand, x := slot.x, temperature := slot.capture[strand].temperature, fallback := slot.capture[strand].fallback,
    trended := trendedValues c slot strand }

/-- The persistence records of a strand after a track slot: the carried skips, then the results (R85, R86). -/
def persistenceAfter (c : Card) (slot : Slot) (strand : Fin 4) (ps : Vector Persistence 32) : Vector Persistence 32 :=
  Vector.ofFn fun f => (resultOn c slot strand f (skipsOn c slot strand f ps[f]).1).1

/-- The events of a strand in a track slot, in the order of R86. -/
def eventsOf (c : Card) (slot : Slot) (strand : Fin 4) (ps : Vector Persistence 32) : List TrackerEvent :=
  featuresInOrder.flatMap (fun f => (skipsOn c slot strand f ps[f]).2)
    ++ TrackerEvent.scan (scanEventOf c slot strand)
    :: featuresInOrder.flatMap (fun f => (resultOn c slot strand f (skipsOn c slot strand f ps[f]).1).2)

/-- The last-results record that the evaluation of a strand in a slot writes (R88). -/
def lastResultsOf (c : Card) (slot : Slot) (strand : Fin 4) : LastResults :=
  { number := slot.number, x := slot.x, temperature := slot.capture[strand].temperature, band := slot.capture[strand].band,
    manual := slot.manual, features := Vector.ofFn fun f => featureResult c slot strand f }

end Sys2Proof.Machine
end

