-- ==== Sys2Proof/Machine/Zones.lean ====
section
/-! DEFINITION. What the strand tracker does with the zones of one strand: the open-zone table (R102 to R105), the closed-zone
list with its merging and coarsening (R106 to R108), predicted zones (R109), scan events (R110), and the entry into ENDED (R93). -/

namespace Sys2Proof.Machine

/-- The strand is in NOSE, RUNNING or TAILING (R103, R110). -/
def Strand.active (st : Strand) : Bool := st.state == .nose || st.state == .running || st.state == .tailing

/-- The strand is in NOSE or RUNNING (R96 to R98). -/
def Strand.extruding (st : Strand) : Bool := st.state == .nose || st.state == .running

/-- The tail of a TAILING strand lies at or below `x` (R103, R110). -/
def Strand.pastTail (st : Strand) (x : Int) : Bool :=
  match st.state, st.tail with
  | .tailing, some t => decide (t ≤ x)
  | _, _ => false

/-- The higher of two severities (R106 gives the order). -/
def higherSeverity : Severity → Severity → Severity
  | .cutout, _ => .cutout
  | _, .cutout => .cutout
  | .major, _ => .major
  | _, .major => .major
  | .minor, .minor => .minor

/-- The greater of two worsts present, ties going to the first (R107, R108). -/
def greaterWorst : Option Worst → Option Worst → Option Worst
  | some a, some b => if a.excess < b.excess then some b else some a
  | some a, none => some a
  | none, b => b

/-- The higher of two billets present (R108). -/
def higherBillet : Option Nat → Option Nat → Option Nat
  | some a, some b => some (max a b)
  | some a, none => some a
  | none, b => b

/-- The sides of two zones combined (R107). -/
def combinedSides : Option Sides → Option Sides → Option Sides
  | some a, some b => some (joinSides a b)
  | some a, none => some a
  | none, b => b

/-- The union of two sets of source classes (R108). -/
def Sources.union (a b : Sources) : Sources :=
  { dimension := a.dimension || b.dimension, blind := a.blind || b.blind, weld := a.weld || b.weld, stop := a.stop || b.stop }

/-- The source classes of a class alone (R106). -/
def ZoneClass.alone : ZoneClass → Sources
  | .dimension => { dimension := true, blind := false, weld := false, stop := false }
  | .blind => { dimension := false, blind := true, weld := false, stop := false }
  | .weld => { dimension := false, blind := false, weld := true, stop := false }
  | .stop => { dimension := false, blind := false, weld := false, stop := true }
  | .merged => { dimension := false, blind := false, weld := false, stop := false }

/-- Two zones joined into one in the place of the first (R108); for zones of one class and feature, the merge of R107. -/
def joinZones (a b : ClosedZone) : ClosedZone :=
  let same := a.cls == b.cls && a.feature == b.feature
  let cls := if same then a.cls else .merged
  { number := a.number, cls := cls, feature := if same then a.feature else none,
    severity := higherSeverity a.severity b.severity, start := min a.start b.start, finish := max a.finish b.finish,
    sides := if cls == .dimension then combinedSides a.sides b.sides else none,
    worst := greaterWorst a.worst b.worst, billet := higherBillet a.billet b.billet, sources := a.sources.union b.sources }

/-- Insertion after every entry whose start is at or below the zone's own (R106). -/
def insertZone (z : ClosedZone) : List ClosedZone → List ClosedZone
  | [] => [z]
  | y :: rest => if y.start ≤ z.start then y :: insertZone z rest else z :: y :: rest

/-- The gap of a pair of entries adjacent in list order (R108). -/
def gapOf (a b : ClosedZone) : Int := b.start - a.finish

/-- The smallest gap of a list (R108). -/
def smallestGap : List ClosedZone → Option Int
  | [] => none
  | [_] => none
  | a :: b :: rest =>
      match smallestGap (b :: rest) with
      | none => some (gapOf a b)
      | some g => some (min (gapOf a b) g)

/-- Joins the earliest adjacent pair with gap `g` (R108). -/
def joinAt (g : Int) : List ClosedZone → List ClosedZone
  | [] => []
  | [a] => [a]
  | a :: b :: rest => if gapOf a b = g then joinZones a b :: rest else a :: joinAt g (b :: rest)

/-- One coarsening: the adjacent pair with the smallest gap becomes one entry (R108). -/
def coarsen (zs : List ClosedZone) : List ClosedZone :=
  match smallestGap zs with
  | none => zs
  | some g => joinAt g zs

/-- The places of a closed-zone list (R106). -/
def closedPlaces : Nat := 48

/-- A strand after the tracker has taken an arrival, with whether a late result is counted (R114) and whether the list was
coarsened (R108). -/
structure Tracked where
  strand    : Strand
  late      : Bool
  coarsened : Bool
deriving DecidableEq, Repr

/-- A strand as it stands, with nothing counted. -/
def Strand.quiet (st : Strand) : Tracked := { strand := st, late := false, coarsened := false }

/-- An arrival discarded and counted as a late result. -/
def Strand.tooLate (st : Strand) : Tracked := { strand := st, late := true, coarsened := false }

/-- Inserts a zone into the strand's list, with a coarsening where it would hold 49 (R106, R108). -/
def Strand.addZone (z : ClosedZone) (st : Strand) : Tracked :=
  let zs := insertZone z st.closed
  if closedPlaces < zs.length then { strand := { st with closed := coarsen zs }, late := false, coarsened := true }
  else { strand := { st with closed := zs }, late := false, coarsened := false }

/-- The entry lies within the merge gap of a closed zone of the same class and feature (R107). -/
def mergesWith (gap : Nat) (z y : ClosedZone) : Bool :=
  y.cls == z.cls && y.feature == z.feature && decide (max y.start z.start - min y.finish z.finish ≤ (gap : Int))

/-- A closed DIMENSION or BLIND zone is merged under R107 or inserted under R106. -/
def Strand.mergeZone (gap : Nat) (z : ClosedZone) (st : Strand) : Tracked :=
  match st.closed.filter (mergesWith gap z) with
  | [] => st.addZone z
  | y :: ys =>
      let merged := (ys ++ [z]).foldl joinZones y
      Strand.quiet { st with closed := insertZone merged (st.closed.filter fun y => !mergesWith gap z y) }

/-- The zone number after `n` (R102). -/
def nextZoneNumber (n : Nat) : Nat := if 65535 ≤ n then 1 else n + 1

/-- A start clipped to the strand's last cut (R103, R109). -/
def Strand.clip (st : Strand) (start : Int) : Int := max start st.lastCut

/-- The clip of a start counts as a late result (R103). -/
def Strand.clipCounts (st : Strand) (start : Int) : Bool := decide (start < st.lastCut) && decide (st.nose < st.lastCut)

/-- An update of a present DIMENSION entry with sides and possibly a worst (R104). -/
def OpenDimension.update (sides : Sides) (worst : Option Worst) (o : OpenDimension) : OpenDimension :=
  { o with sides := joinSides o.sides sides,
           worst := match worst with
             | some w => if o.worst.excess < w.excess then w else o.worst
             | none => o.worst }

/-- An open event reaches the strand (R103, R111). -/
def Strand.openZone (e : ZoneOpen) (st : Strand) : Tracked :=
  if !st.active then st.tooLate
  else if st.pastTail e.start then st.tooLate
  else
    match e.finding with
    | .dimension sides worst =>
        match st.dimensions[e.feature] with
        | some o => Strand.quiet { st with dimensions := setAt st.dimensions e.feature (some (o.update sides (some worst))) }
        | none =>
            { strand := { st with
                dimensions := setAt st.dimensions e.feature
                  (some { number := st.nextZone, start := st.clip e.start, sides := sides, worst := worst }),
                nextZone := nextZoneNumber st.nextZone },
              late := st.clipCounts e.start, coarsened := false }
    | .blind =>
        match st.blinds[e.feature] with
        | some _ => st.quiet
        | none =>
            { strand := { st with
                blinds := setAt st.blinds e.feature (some { number := st.nextZone, start := st.clip e.start }),
                nextZone := nextZoneNumber st.nextZone },
              late := st.clipCounts e.start, coarsened := false }

/-- An update event reaches the strand (R104, R111). -/
def Strand.updateZone (e : ZoneUpdate) (st : Strand) : Strand :=
  match st.active, st.dimensions[e.feature] with
  | true, some o => { st with dimensions := setAt st.dimensions e.feature (some (o.update (sideAsSides e.side) e.worst)) }
  | _, _ => st

/-- The severity of a DIMENSION zone of a feature: that in the feature's limits on the card (R105, R116); a free value
where the feature is absent (log entry 9). -/
def dimensionSeverity (c : Card) (f : Fin 32) : Severity :=
  match c.features[f] with
  | some feature => feature.limits.severity.severity
  | none => Config.absentFeatureSeverity f

/-- The zone of an open DIMENSION entry up to `finish` (R105, R116). -/
def OpenDimension.zone (c : Card) (f : Fin 32) (finish : Int) (o : OpenDimension) : ClosedZone :=
  { number := o.number, cls := .dimension, feature := some f, severity := dimensionSeverity c f, start := o.start, finish := finish,
    sides := some o.sides, worst := some o.worst, billet := none, sources := ZoneClass.dimension.alone }

/-- The zone of an open BLIND entry up to `finish` (R105, R116). -/
def OpenBlind.zone (c : Card) (f : Fin 32) (finish : Int) (o : OpenBlind) : ClosedZone :=
  { number := o.number, cls := .blind, feature := some f, severity := c.line.blindSeverity.severity, start := o.start, finish := finish,
    sides := none, worst := none, billet := none, sources := ZoneClass.blind.alone }

/-- A zone that a close event ends: dropped and counted when its end is not above its start, else merged or inserted (R105). -/
def Strand.endZone (c : Card) (z : ClosedZone) (st : Strand) : Tracked :=
  if z.finish ≤ z.start then st.tooLate else st.mergeZone c.line.mergeGap z

/-- A close event reaches the strand (R105, R111). -/
def Strand.closeZone (c : Card) (e : ZoneClose) (st : Strand) : Tracked :=
  if !st.active then st.quiet
  else
    match e.kind with
    | .dimension =>
        match st.dimensions[e.feature] with
        | none => st.quiet
        | some o =>
            Strand.endZone c (o.zone c e.feature e.finish) { st with dimensions := setAt st.dimensions e.feature none }
    | .blind =>
        match st.blinds[e.feature] with
        | none => st.quiet
        | some o => Strand.endZone c (o.zone c e.feature e.finish) { st with blinds := setAt st.blinds e.feature none }

/-- The end of a predicted zone: start + 1 where it is not above the start (R109). -/
def predictedEnd (start finish : Int) : Int := if finish ≤ start then start + 1 else finish

/-- A predicted zone, WELD with its billet or STOP, as it enters the list of a strand (R106, R109). -/
def predictedZone (cls : ZoneClass) (severity : Severity) (billet : Option Nat) (start finish : Int) (st : Strand) : ClosedZone :=
  { number := st.nextZone, cls := cls, feature := none, severity := severity, start := st.clip start,
    finish := predictedEnd start finish, sides := none, worst := none, billet := billet, sources := cls.alone }

/-- A strand's list admits a predicted zone (R109). -/
def Strand.admits (st : Strand) (start finish : Int) : Bool := decide (st.lastCut < predictedEnd start finish)

/-- A predicted zone is offered to a strand's list (R109). -/
def Strand.offer (cls : ZoneClass) (severity : Severity) (billet : Option Nat) (start finish : Int) (st : Strand) : Tracked :=
  if st.admits start finish then
    let t := Strand.addZone (predictedZone cls severity billet start finish st) { st with nextZone := nextZoneNumber st.nextZone }
    { t with late := st.clipCounts start }
  else st.tooLate

/-- A strand's part of BILLET_JOIN at die coordinate `p` (R96). -/
def Strand.join (line : LineSection) (p : Int) (st : Strand) : Tracked :=
  if !st.extruding then st.quiet
  else
    let start := p + line.weldLead
    let finish := start + line.weldLength
    let billet := bump16 st.billet
    if st.admits start finish then Strand.offer .weld .cutout (some billet) start finish { st with billet := billet }
    else st.tooLate

/-- A strand's part of a STOP taken in RUNNING at die coordinate `p` (R97). -/
def Strand.halt (line : LineSection) (p : Int) (st : Strand) : Tracked :=
  if !st.extruding then st.quiet
  else st.offer .stop line.stopSeverity.severity none (p - line.stopMargin) (p + line.stopMargin + 1)

/-- A strand's part of RUN_END at die coordinate `p` (R98). -/
def Strand.runEnd (p : Int) (st : Strand) : Strand :=
  if st.extruding then { st with state := .tailing, tail := some p, closed := st.closed.filter fun z => decide (z.start < p) } else st

/-- A trended value folded into its extreme (R110). -/
def Extreme.fold (w : Option Int) (x : Extreme) : Extreme :=
  match w with
  | none => { x with missing := bump16 x.missing }
  | some w =>
      { x with least := some (match x.least with
                 | some l => min l w
                 | none => w),
               greatest := some (match x.greatest with
                 | some g => max g w
                 | none => w) }

/-- The trended extremes after a scan event (R110). -/
def foldTrended (vs : List TrendValue) (xs : Vector Extreme 32) : Vector Extreme 32 :=
  vs.foldl (fun acc v => setAt acc v.feature (acc[v.feature].fold v.w)) xs

/-- A scan event reaches the strand (R110, R111). -/
def Strand.takeScan (e : ScanEvent) (st : Strand) : Tracked :=
  if !st.active then st.quiet
  else if decide (e.x < st.lastCut) || st.pastTail e.x then st.tooLate
  else
    Strand.quiet { st with
      state := if st.state = .nose then .running else st.state,
      tempSum := st.tempSum + e.temperature, scanCount := st.scanCount + 1,
      fallbackMark := st.fallbackMark || e.fallback, extremes := foldTrended e.trended st.extremes }

/-- The steps of a strand that enters ENDED (R93). -/
def Strand.ended (st : Strand) : Strand :=
  { st with state := .ended, dimensions := Vector.replicate 32 none, blinds := Vector.replicate 32 none, closed := [], cutLost := false }

/-- A strand follows a strand count of the card: IDLE and ABSENT strands only (R92). -/
def Strand.follow (count : Nat) (i : Fin 4) (st : Strand) : Strand :=
  if st.state = .idle ∨ st.state = .absent then { st with state := if i.val < count then .idle else .absent } else st

end Sys2Proof.Machine
end

