-- ==== Sys2Proof/Machine/Lengths.lean ====
section
/-! DEFINITION. Lengths: the candidates of a length (R116, R117, R124), its record (R66, R67, R120 to R125), its verdict and
reasons (R126, R127), and the advance of the strand (R118). -/

namespace Sys2Proof.Machine

/-- How a length comes to be formed: by a cut (R115), by RUN_CLOSE taken while the press was ENDING or otherwise (R99), or by
WITHDRAW (R100). -/
inductive Origin where
  | cut
  | closedEnding
  | closedRunning
  | withdrawn
deriving DecidableEq, Repr

/-- The candidates from the closed-zone list, in list order (R117). -/
def closedCandidates (upper : Int) (zs : List ClosedZone) : List ClosedZone :=
  (zs.filter fun z => decide (z.start < upper)).map fun z => { z with finish := min z.finish upper }

/-- The candidates from the DIMENSION entries, in increasing feature index (R116, R124). -/
def dimensionCandidates (c : Card) (upper : Int) (st : Strand) : List ClosedZone :=
  featuresInOrder.filterMap fun f =>
    match st.dimensions[f] with
    | some o => if o.start < upper then some (o.zone c f upper) else none
    | none => none

/-- The candidates from the BLIND entries, in increasing feature index (R116, R124). -/
def blindCandidates (c : Card) (upper : Int) (st : Strand) : List ClosedZone :=
  featuresInOrder.filterMap fun f =>
    match st.blinds[f] with
    | some o => if o.start < upper then some (o.zone c f upper) else none
    | none => none

/-- The candidates of a length in gathering order (R124). -/
def candidates (c : Card) (upper : Int) (st : Strand) : List ClosedZone :=
  closedCandidates upper st.closed ++ dimensionCandidates c upper st ++ blindCandidates c upper st

/-- The closed-zone list after a length up to `upper` (R117). -/
def trimClosed (upper : Int) (zs : List ClosedZone) : List ClosedZone :=
  zs.filterMap fun z =>
    if upper ≤ z.start then some z else if z.finish ≤ upper then none else some { z with start := upper }

/-- The DIMENSION entries after a length up to `upper` (R116). -/
def splitDimensions (upper : Int) (v : Vector (Option OpenDimension) 32) : Vector (Option OpenDimension) 32 :=
  Vector.ofFn fun f => v[f].map fun o => { o with start := max o.start upper }

/-- The BLIND entries after a length up to `upper` (R116). -/
def splitBlinds (upper : Int) (v : Vector (Option OpenBlind) 32) : Vector (Option OpenBlind) 32 :=
  Vector.ofFn fun f => v[f].map fun o => { o with start := max o.start upper }

/-- Stable insertion by an order. -/
def insertBy {α : Type} (le : α → α → Bool) (x : α) : List α → List α
  | [] => [x]
  | y :: rest => if le x y then x :: y :: rest else y :: insertBy le x rest

/-- Stable sort by an order: of two entries that each may go first, the one that stood first stays first. -/
def sortBy {α : Type} (le : α → α → Bool) : List α → List α
  | [] => []
  | x :: rest => insertBy le x (sortBy le rest)

/-- The rank of a severity, CUTOUT above MAJOR above MINOR (R125). -/
def severityRank : Severity → Nat
  | .minor => 0
  | .major => 1
  | .cutout => 2

/-- The order of R125 among candidates: the higher severity first, then the lower start. -/
def ranksBefore (a b : ClosedZone × Nat) : Bool :=
  decide (severityRank b.1.severity < severityRank a.1.severity)
    || (a.1.severity == b.1.severity && decide (a.1.start ≤ b.1.start))

/-- The order of a record's zone entries: start ascending, equal starts in gathering order (R125). -/
def listedBefore (a b : ClosedZone × Nat) : Bool :=
  decide (a.1.start < b.1.start) || (decide (a.1.start = b.1.start) && decide (a.2 ≤ b.2))

/-- The zone entries that a record can hold (R125). -/
def zonePlaces : Nat := 12

/-- The zone entries of a record (R125). -/
def zoneEntries (cs : List ClosedZone) : List ClosedZone :=
  let numbered := cs.zipIdx
  let kept := if cs.length ≤ zonePlaces then numbered else (sortBy ranksBefore numbered).take zonePlaces
  (sortBy listedBefore kept).map Prod.fst

/-- Zones omitted (R125). -/
def zonesOmitted (cs : List ClosedZone) : Nat := cs.length - zonePlaces

/-- The mean temperature of a length (R66). -/
def meanTemperature (th : ThermalRecord) (st : Strand) : Nat :=
  if 0 < st.scanCount then (roundDiv (st.tempSum : Int) st.scanCount).toNat else th.temperature

/-- The thermal-fallback mark of a length (R66). -/
def lengthFallback (th : ThermalRecord) (st : Strand) : Bool := st.fallbackMark || (decide (st.scanCount = 0) && th.fallback)

/-- The cold length of a hot length at a mean temperature (R67). -/
def coldLength (t : ThermalSection) (hot : Int) (tMean : Nat) : Int := coldValue hot (coefficient t (plainBand t tMean)) tMean

/-- The last billet of a length (R122). -/
def lastBilletOf (first : Nat) (cs : List ClosedZone) : Nat :=
  cs.foldl (fun b z => match z.billet with
    | some n => max b n
    | none => b) first

/-- The trend entries of a length (R123). -/
def trendEntries (xs : Vector Extreme 32) : List TrendEntry :=
  featuresInOrder.filterMap fun f => if xs[f] = Extreme.empty then none else some { feature := f, extreme := xs[f] }

/-- The candidate has severity MAJOR or CUTOUT (R126, R127). -/
def ClosedZone.severe (z : ClosedZone) : Bool := z.severity != .minor

/-- The length straddles a crop boundary (R126 case 5). -/
def straddles (line : LineSection) (st : Strand) (lower upper : Int) : Bool :=
  (decide (lower < st.nose + line.noseCrop) && decide (st.nose + line.noseCrop < upper))
    || (match st.tail with
        | some t => decide (lower < t - line.tailCrop) && decide (t - line.tailCrop < upper)
        | none => false)

/-- The length lies in the tail crop (R126 case 4). -/
def inTailCrop (line : LineSection) (st : Strand) (lower : Int) : Bool :=
  match st.tail with
  | some t => decide (t - line.tailCrop ≤ lower)
  | none => false

/-- The verdict of a length (R126). -/
def verdictOf (line : LineSection) (fs : Failsafe) (origin : Origin) (st : Strand) (lower upper : Int) (cs : List ClosedZone) : Verdict :=
  if fs = .failsafe then .reject
  else if st.cutLost then .reject
  else
    match origin with
    | .closedEnding => .tail
    | .closedRunning => .reject
    | .withdrawn => .reject
    | .cut =>
        if upper ≤ st.nose + line.noseCrop then .nose
        else if inTailCrop line st lower then .tail
        else if straddles line st lower upper then .reject
        else if cs.any ClosedZone.severe then .reject
        else if upper - lower < line.minLength then .short
        else .accept

/-- The candidate has the class, or has it among its source classes where its class is MERGED (R127). -/
def ClosedZone.shows (cls : ZoneClass) (among : Bool) (z : ClosedZone) : Bool := z.cls == cls || (z.cls == .merged && among)

/-- The reasons of a length (R127). -/
def reasonsOf (line : LineSection) (fs : Failsafe) (origin : Origin) (st : Strand) (lower upper : Int) (cs : List ClosedZone) : Reasons :=
  { dimension := cs.any fun z => z.severe && z.shows .dimension z.sources.dimension,
    blind := cs.any fun z => z.severe && z.shows .blind z.sources.blind,
    weld := cs.any fun z => z.severe && z.shows .weld z.sources.weld,
    stop := cs.any fun z => z.severe && z.shows .stop z.sources.stop,
    cropSpan := origin == .cut && straddles line st lower upper,
    failsafe := fs == .failsafe,
    cutLost := st.cutLost,
    withdrawn := origin == .withdrawn,
    aborted := origin == .closedRunning }

/-- The record of a length of strand `i` from its last cut up to `upper` (R120); the sequence is written when the record
joins the queue (R121). -/
def lengthRecord (c : Card) (digest : Word32) (th : ThermalRecord) (fs : Failsafe) (origin : Origin) (i : Fin 4) (st : Strand)
    (upper : Int) : LengthRecord :=
  let cs := candidates c upper st
  let tMean := meanTemperature th st
  { sequence := 0, strand := i, index := st.lengthIndex, lower := st.lastCut, upper := upper, hot := upper - st.lastCut,
    cold := coldLength c.thermal (upper - st.lastCut) tMean, tMean := tMean, fallback := lengthFallback th st,
    verdict := verdictOf c.line fs origin st st.lastCut upper cs, reasons := reasonsOf c.line fs origin st st.lastCut upper cs,
    firstBillet := st.lowerBillet, lastBillet := lastBilletOf st.lowerBillet cs, digest := digest,
    trends := trendEntries st.extremes, zones := zoneEntries cs, omitted := zonesOmitted cs }

/-- The strand after a length up to `upper` has been formed and judged (R116 to R118). -/
def Strand.advance (c : Card) (upper : Int) (st : Strand) : Strand :=
  { st with
    lastCut := upper, lengthIndex := bump16 st.lengthIndex, lowerBillet := lastBilletOf st.lowerBillet (candidates c upper st),
    tempSum := 0, scanCount := 0, fallbackMark := false, extremes := Vector.replicate 32 Extreme.empty, cutLost := false,
    dimensions := splitDimensions upper st.dimensions, blinds := splitBlinds upper st.blinds, closed := trimClosed upper st.closed }

/-- The places of the report queue (R167). -/
def reportPlaces : Nat := 64

/-- A 32-bit tally count grown by `m`, saturating (R167). -/
def bump32 (n m : Nat) : Nat := bump 4294967295 n m

/-- A record joins the report queue or goes to the overflow tally (R121, R167). -/
def ReportUnit.take (r : LengthRecord) (u : ReportUnit) : ReportUnit :=
  if u.queue.length < reportPlaces then
    { u with queue := u.queue ++ [{ r with sequence := u.nextSequence }], nextSequence := (u.nextSequence + 1) % 65536 }
  else
    ({ u with tally := { lengths := bump32 u.tally.lengths 1,
                         rejects := bump32 u.tally.rejects (if r.verdict = .reject then 1 else 0),
                         millis := bump32 u.tally.millis r.hot.toNat } } : ReportUnit).raise .queueOverflow

/-- The upper end of a final length at head coordinate `h`: the tail where the strand has one below `h` (R99, R100). -/
def finalUpper (st : Strand) (h : Int) : Int :=
  match st.tail with
  | some t => min t h
  | none => h

/-- The upper end of a length that a cut at `c` gives: the tail of a TAILING strand where it is below `c` (R115 step 2). -/
def cutUpper (st : Strand) (c : Int) : Int := if st.state = .tailing then finalUpper st c else c

end Sys2Proof.Machine
end

