-- ==== Sys2Proof/Machine/Operands.lean ====
section
/-! DEFINITION. The operand forms of the requests: how a field of a telegram becomes a value of the card, which values are
refused with BAD_VALUE and which are brought into range (R3, R4, R13, R62, R70, R73, R137, R163). -/

namespace Sys2Proof.Machine

/-- A yes-or-no byte; any byte but 0 and 1 is refused with BAD_VALUE (R163). -/
def yesNoOf (b : Byte) : Option Bool := if b = 0 then some false else if b = 1 then some true else none

/-- An index below `n` in one byte (R163). -/
def indexOf (n : Nat) (b : Byte) : Option (Fin n) := if h : b.toNat < n then some ⟨b.toNat, h⟩ else none

/-- A severity byte of a card: MINOR 0, MAJOR 1 (R163, R166). -/
def gradeOf (b : Byte) : Option Grade := if b = 0 then some .minor else if b = 1 then some .major else none

/-- A feature kind byte: SPAN, LEVEL, GAP, FLAT (R166). -/
def kindByte (b : Byte) : Option FeatureKind :=
  if b = 0 then some .span else if b = 1 then some .level else if b = 2 then some .gap else if b = 3 then some .flat else none

/-- A value in range, or nothing. -/
def checked {α : Type} (ok : α → Bool) (a : α) : Option α := if ok a then some a else none

/-- The head record that SET_HEAD carries, `none` where a field is out of range or the dark limit is not below the bright
limit (R3 cases 3 and 4). -/
def headRecordOf (r : RawHead) : Option HeadRecord :=
  match yesNoOf r.enabled, indexOf 4 r.strand, indexOf 4 r.position, yesNoOf r.mirrorColumn, yesNoOf r.mirrorRange, yesNoOf r.swap with
  | some enabled, some strand, some position, some mirrorColumn, some mirrorRange, some swap =>
      checked HeadRecord.inRange
        { enabled := enabled, strand := strand, position := position, mirrorColumn := mirrorColumn, mirrorRange := mirrorRange,
          swap := swap, c0 := r.c0.toNat, pitch := r.pitch.toNat, offU := r.offU.toInt, offV := r.offV.toInt,
          minPoints := r.minPoints.toNat, dark := r.dark.toNat, bright := r.bright.toNat }
  | _, _, _, _, _, _ => none

/-- Another enabled head of the card has the strand and position of an enabled record (R3 case 5). -/
def placeTaken (c : Card) (i : Fin 8) (h : HeadRecord) : Bool :=
  h.enabled && headsInOrder.any fun j =>
    j != i && c.heads[j].enabled && c.heads[j].strand == h.strand && c.heads[j].position == h.position

/-- The curve that SET_CURVE carries, `none` where a point is out of range (R4) or where there are not 17 points (such a
command is not well formed). -/
def curveOf (points : List Word32) : Option (Vector Int 17) :=
  if points.length = 17 ∧ points.all (fun p => curvePointInRange p.toInt) then
    some (Vector.ofFn fun i => (points.getD i.val 0).toInt)
  else none

/-- A number brought into the range from `low` to `high` (R70, R73, R137). -/
def clamp (low high n : Nat) : Nat := max low (min high n)

/-- The limits that a limits block carries, K_open and K_close brought into 1 to 15, with whether either was; `none` where a
nominal or tolerance is out of range, the lower tolerance is above the upper, or the severity names no value (R70, R73). -/
def limitsOf (r : RawLimits) : Option (Limits × Bool) :=
  match gradeOf r.severity with
  | none => none
  | some severity =>
      let l : Limits := { nominal := r.nominal.toInt, lower := r.lower.toInt, upper := r.upper.toInt,
                          kOpen := clamp 1 15 r.kOpen.toNat, kClose := clamp 1 15 r.kClose.toNat, severity := severity }
      if l.tolerancesInRange then some (l, decide (l.kOpen ≠ r.kOpen.toNat) || decide (l.kClose ≠ r.kClose.toNat)) else none

/-- A window that a request carries, its last column brought down to 511, with whether it was; `none` where its first column
is then above its last (R13). -/
def windowOf (first last : Word16) : Option (Window × Bool) :=
  let w : Window := { first := first.toNat, last := min last.toNat 511 }
  if w.first ≤ w.last then some (w, decide (511 < last.toNat)) else none

/-- Position B and window B, read for a GAP only and there at a position other than position A (R70 cases 3, 4 and 6). -/
def placeBOf (kind : FeatureKind) (posA : Fin 4) (r : RawFeature) : Option (Option Place × Bool) :=
  match kind with
  | .gap =>
      match indexOf 4 r.posB, windowOf r.firstB r.lastB with
      | some p, some (w, c) => if p = posA then none else some (some { position := p, window := w }, c)
      | _, _ => none
  | .span => some (none, false)
  | .level => some (none, false)
  | .flat => some (none, false)

/-- The feature record that SET_FEATURE carries as it is stored, with whether a field was brought into range; `none` where
R70 cases 3 to 6 refuse it. -/
def featureOf (r : RawFeature) : Option (Feature × Bool) :=
  match kindByte r.kind, indexOf 4 r.posA, windowOf r.firstA r.lastA, yesNoOf r.trended, limitsOf r.limits with
  | some kind, some posA, some (windowA, ca), some trended, some (limits, cl) =>
      match placeBOf kind posA r with
      | some (placeB, cb) =>
          if 1 ≤ r.minPoints.toNat ∧ r.minPoints.toNat ≤ 512 then
            some ({ featureId := r.featureId.toNat, kind := kind, placeA := { position := posA, window := windowA }, placeB := placeB,
                    minPoints := r.minPoints.toNat, trended := trended, limits := limits }, ca || cb || cl)
          else none
      | none => none
  | _, _, _, _, _ => none

/-- How many present features other than `i` are trended (R70 case 7). -/
def trendedOthers (c : Card) (i : Fin 32) : Nat :=
  featuresInOrder.countP fun j => j != i && (match c.features[j] with
    | some f => f.trended
    | none => false)

/-- The thermal section that SET_THERMAL carries as it is stored, with whether a field was brought into range; `none` where
R62 cases 2 to 4 refuse it. -/
def thermalOf (r : RawThermal) : Option (ThermalSection × Bool) :=
  let t : ThermalSection :=
    { u0 := r.u0.toNat, u1 := r.u1.toNat, u2 := r.u2.toNat, k0 := r.k0.toNat, k1 := r.k1.toNat, k2 := r.k2.toNat, k3 := r.k3.toNat,
      hysteresis := min r.hysteresis.toNat 500, defaultTemp := r.defaultTemp.toNat, hold := min r.hold.toNat 5000 }
  if t.increasing && t.inRange then some (t, decide (500 < r.hysteresis.toNat) || decide (5000 < r.hold.toNat)) else none

/-- The line section that SET_LINE carries as clamped, with whether a field was brought into range; `none` where an unclamped
field is out of range or a severity names no value (R137 steps 1 and 2). -/
def lineOf (r : RawLine) : Option (LineSection × Bool) :=
  match gradeOf r.stopSeverity, gradeOf r.blindSeverity with
  | some stopSeverity, some blindSeverity =>
      let l : LineSection :=
        { dHead := r.dHead.toNat, dSaw := r.dSaw.toNat, scanPitch := clamp 1000 100000 r.scanPitch.toNat, scaleA := r.scaleA.toNat,
          scaleB := r.scaleB.toNat, weldLead := r.weldLead.toNat, weldLength := r.weldLength.toNat, stopMargin := r.stopMargin.toNat,
          stopSeverity := stopSeverity, noseCrop := r.noseCrop.toNat, tailCrop := r.tailCrop.toNat, minLength := r.minLength.toNat,
          mergeGap := clamp 0 1000 r.mergeGap.toNat, blindLimit := clamp 0 255 r.blindLimit.toNat, blindSeverity := blindSeverity,
          lineWait := clamp 1 100 r.lineWait.toNat }
      if l.unclampedInRange then
        some (l, decide (l.scanPitch ≠ r.scanPitch.toNat) || decide (l.mergeGap ≠ r.mergeGap.toNat)
                   || decide (l.blindLimit ≠ r.blindLimit.toNat) || decide (l.lineWait ≠ r.lineWait.toNat))
      else none
  | _, _ => none

/-- The watchdog interval that SET_WATCHDOG stores (R160). -/
def intervalOf (w : Word16) : Nat := if w = 0 then 0 else clamp 50 60000 w.toNat

/-- The trigger mode that SET_TRIGGER carries: DISTANCE 0, HALT 1 (R25, R163). -/
def modeOf (b : Byte) : Option TriggerMode := if b = 0 then some .distance else if b = 1 then some .halt else none

/-- The lock mode that BANK_LOCK carries: OPEN 0, HELD 1, FIXED 2 (R149, R163). -/
def lockOf (b : Byte) : Option Lock :=
  if b = 0 then some .unlocked else if b = 1 then some .held else if b = 2 then some .fixed else none

/-- The boot bank that SET_BOOT carries: a bank 0 to 7, or FFh for none (R150, R163). -/
def bootOf (b : Byte) : Option (Option (Fin 8)) :=
  if b = 0xFF then some none
  else match indexOf 8 b with
    | some i => some (some i)
    | none => none

end Sys2Proof.Machine
end

