-- ==== Sys2Proof/Machine/Telegram.lean ====
section
/-! DEFINITION. Telegrams: the kinds of requests (R154), the lengths and layouts of their payloads (R163, R166), reading a
request from a payload and writing it, the framing receiver (R155), the frames that the part sends (R33, R154). -/

namespace Sys2Proof.Machine

/-- The kind of the request that a command serves, in the order of R154; PRESS is the kind of its five events (R94). An event
of the table that is no request has none. -/
def kindOf : Instr → Option Nat
  | .status => some 1
  | .ident => some 2
  | .setHead _ _ => some 3
  | .setCurve _ _ => some 4
  | .setFeature _ _ => some 5
  | .clearFeature _ => some 6
  | .setLimits _ _ => some 7
  | .setThermal _ => some 8
  | .setLine _ => some 9
  | .setIdentity _ _ _ _ => some 10
  | .readCard _ _ => some 11
  | .bankLoad _ => some 12
  | .bankStore _ => some 13
  | .bankLock _ _ => some 14
  | .bankInfo => some 15
  | .setBoot _ => some 16
  | .runStart => some 17
  | .billetJoin => some 17
  | .stop => some 17
  | .resume => some 17
  | .runEnd => some 17
  | .runClose => some 18
  | .withdraw _ => some 19
  | .setTrigger _ => some 20
  | .triggerOnce => some 21
  | .headCheck _ _ => some 22
  | .headInfo => some 23
  | .gaugeLatch _ => some 24
  | .gaugeRead _ => some 25
  | .trackRead _ _ => some 26
  | .reportRead => some 27
  | .reportDrop _ => some 28
  | .readCounters => some 29
  | .clearCounters => some 30
  | .clearFlags _ _ => some 31
  | .setAlarmMask _ => some 32
  | .setWatchdog _ => some 33
  | .forceFailsafe => some 34
  | .clearFailsafe => some 35
  | .restart => some 36
  | .powerOn _ _ => none
  | .forwardCount _ => none
  | .reverseCount _ => none
  | .pullerSelectChange => none
  | .cutEdge _ => none
  | .lostCutReport => none
  | .takeCut => none
  | .lineFrame _ => none
  | .lineWaitExpiry _ => none
  | .strandEvaluation _ => none
  | .slotEvaluationEnd => none
  | .scanEvent _ => none
  | .zoneOpenEvent _ => none
  | .zoneUpdateEvent _ => none
  | .zoneCloseEvent _ => none
  | .pyroSample _ _ => none
  | .holdTimerExpiry _ => none
  | .checkLimitExpiry => none
  | .bankStoreEnd _ => none
  | .watchdogExpiry => none
  | .frameGapTimeout => none
  | .linkFrame _ => none
  | .replySent => none
  | .supplyFailure _ => none

/-- The payload length that a kind requires, by the sizes of its fields (R163, R166); `none` where the kind names no request. -/
def lengthOf (kind : Nat) : Option Nat :=
  match kind with
  | 1 => some 0
  | 2 => some 0
  | 3 => some 23
  | 4 => some 69
  | 5 => some 32
  | 6 => some 1
  | 7 => some 16
  | 8 => some 20
  | 9 => some 54
  | 10 => some 8
  | 11 => some 2
  | 12 => some 1
  | 13 => some 1
  | 14 => some 2
  | 15 => some 0
  | 16 => some 1
  | 17 => some 1
  | 18 => some 0
  | 19 => some 1
  | 20 => some 1
  | 21 => some 0
  | 22 => some 2
  | 23 => some 0
  | 24 => some 1
  | 25 => some 1
  | 26 => some 2
  | 27 => some 0
  | 28 => some 2
  | 29 => some 0
  | 30 => some 0
  | 31 => some 3
  | 32 => some 2
  | 33 => some 2
  | 34 => some 0
  | 35 => some 0
  | 36 => some 0
  | _ => none

/-- The limits block at a place of a payload (R166). -/
def limitsAt (p : List Byte) (i : Nat) : RawLimits :=
  { nominal := word32At p i, lower := word32At p (i + 4), upper := word32At p (i + 8), kOpen := byteAt p (i + 12),
    kClose := byteAt p (i + 13), severity := byteAt p (i + 14) }

/-- The head record after the index byte of SET_HEAD (R166). -/
def headAt (p : List Byte) : RawHead :=
  { enabled := byteAt p 1, strand := byteAt p 2, position := byteAt p 3, mirrorColumn := byteAt p 4, mirrorRange := byteAt p 5,
    swap := byteAt p 6, c0 := word16At p 7, pitch := word16At p 9, offU := word32At p 11, offV := word32At p 15,
    minPoints := word16At p 19, dark := byteAt p 21, bright := byteAt p 22 }

/-- The feature record after the index byte of SET_FEATURE (R166). -/
def featureAt (p : List Byte) : RawFeature :=
  { featureId := word16At p 1, kind := byteAt p 3, posA := byteAt p 4, firstA := word16At p 5, lastA := word16At p 7,
    posB := byteAt p 9, firstB := word16At p 10, lastB := word16At p 12, minPoints := word16At p 14, trended := byteAt p 16,
    limits := limitsAt p 17 }

/-- The thermal section of SET_THERMAL (R62, R163). -/
def thermalAt (p : List Byte) : RawThermal :=
  { u0 := word16At p 0, u1 := word16At p 2, u2 := word16At p 4, k0 := word16At p 6, k1 := word16At p 8, k2 := word16At p 10,
    k3 := word16At p 12, hysteresis := word16At p 14, defaultTemp := word16At p 16, hold := word16At p 18 }

/-- The line section of SET_LINE (R136, R163). -/
def lineAt (p : List Byte) : RawLine :=
  { dHead := word32At p 0, dSaw := word32At p 4, scanPitch := word32At p 8, scaleA := word32At p 12, scaleB := word32At p 16,
    weldLead := word32At p 20, weldLength := word32At p 24, stopMargin := word32At p 28, stopSeverity := byteAt p 32,
    noseCrop := word32At p 33, tailCrop := word32At p 37, minLength := word32At p 41, mergeGap := word32At p 45,
    blindLimit := word16At p 49, blindSeverity := byteAt p 51, lineWait := word16At p 52 }

/-- `n` 4-byte words from a place of a payload on. -/
def words32At (p : List Byte) (i : Nat) : Nat → List Word32
  | 0 => []
  | n + 1 => word32At p i :: words32At p (i + 4) n

/-- The press event of an event code, in the order of R94. -/
def pressEvent (code : Byte) : Option Instr :=
  if code = 0 then some .runStart else if code = 1 then some .billetJoin else if code = 2 then some .stop
  else if code = 3 then some .resume else if code = 4 then some .runEnd else none

/-- The request that a kind and a payload of its length name; `none` for a press event code that names no event (R94), the one
payload that no block is given. -/
def requestOf (kind : Nat) (p : List Byte) : Option Instr :=
  match kind with
  | 1 => some .status
  | 2 => some .ident
  | 3 => some (.setHead (byteAt p 0) (headAt p))
  | 4 => some (.setCurve (byteAt p 0) (words32At p 1 17))
  | 5 => some (.setFeature (byteAt p 0) (featureAt p))
  | 6 => some (.clearFeature (byteAt p 0))
  | 7 => some (.setLimits (byteAt p 0) (limitsAt p 1))
  | 8 => some (.setThermal (thermalAt p))
  | 9 => some (.setLine (lineAt p))
  | 10 => some (.setIdentity (word32At p 0) (word16At p 4) (byteAt p 6) (byteAt p 7))
  | 11 => some (.readCard (byteAt p 0) (byteAt p 1))
  | 12 => some (.bankLoad (byteAt p 0))
  | 13 => some (.bankStore (byteAt p 0))
  | 14 => some (.bankLock (byteAt p 0) (byteAt p 1))
  | 15 => some .bankInfo
  | 16 => some (.setBoot (byteAt p 0))
  | 17 => pressEvent (byteAt p 0)
  | 18 => some .runClose
  | 19 => some (.withdraw (byteAt p 0))
  | 20 => some (.setTrigger (byteAt p 0))
  | 21 => some .triggerOnce
  | 22 => some (.headCheck (byteAt p 0) (byteAt p 1))
  | 23 => some .headInfo
  | 24 => some (.gaugeLatch (byteAt p 0))
  | 25 => some (.gaugeRead (byteAt p 0))
  | 26 => some (.trackRead (byteAt p 0) (byteAt p 1))
  | 27 => some .reportRead
  | 28 => some (.reportDrop (word16At p 0))
  | 29 => some .readCounters
  | 30 => some .clearCounters
  | 31 => some (.clearFlags (word16At p 0) (byteAt p 2))
  | 32 => some (.setAlarmMask (word16At p 0))
  | 33 => some (.setWatchdog (word16At p 0))
  | 34 => some .forceFailsafe
  | 35 => some .clearFailsafe
  | 36 => some .restart
  | _ => none

/-- The bytes of a limits block (R166). -/
def limitsBytes (l : RawLimits) : List Byte :=
  bytes32 l.nominal ++ bytes32 l.lower ++ bytes32 l.upper ++ [l.kOpen, l.kClose, l.severity]

/-- The bytes of a head record (R166). -/
def headBytes (h : RawHead) : List Byte :=
  [h.enabled, h.strand, h.position, h.mirrorColumn, h.mirrorRange, h.swap] ++ bytes16 h.c0 ++ bytes16 h.pitch
    ++ bytes32 h.offU ++ bytes32 h.offV ++ bytes16 h.minPoints ++ [h.dark, h.bright]

/-- The bytes of a feature record (R166). -/
def featureBytes (f : RawFeature) : List Byte :=
  bytes16 f.featureId ++ [f.kind, f.posA] ++ bytes16 f.firstA ++ bytes16 f.lastA ++ [f.posB] ++ bytes16 f.firstB ++ bytes16 f.lastB
    ++ bytes16 f.minPoints ++ [f.trended] ++ limitsBytes f.limits

/-- The bytes of a thermal section (R62, R163). -/
def thermalBytes (t : RawThermal) : List Byte :=
  bytes16 t.u0 ++ bytes16 t.u1 ++ bytes16 t.u2 ++ bytes16 t.k0 ++ bytes16 t.k1 ++ bytes16 t.k2 ++ bytes16 t.k3
    ++ bytes16 t.hysteresis ++ bytes16 t.defaultTemp ++ bytes16 t.hold

/-- The bytes of a line section (R136, R163). -/
def lineBytes (l : RawLine) : List Byte :=
  bytes32 l.dHead ++ bytes32 l.dSaw ++ bytes32 l.scanPitch ++ bytes32 l.scaleA ++ bytes32 l.scaleB ++ bytes32 l.weldLead
    ++ bytes32 l.weldLength ++ bytes32 l.stopMargin ++ [l.stopSeverity] ++ bytes32 l.noseCrop ++ bytes32 l.tailCrop
    ++ bytes32 l.minLength ++ bytes32 l.mergeGap ++ bytes16 l.blindLimit ++ [l.blindSeverity] ++ bytes16 l.lineWait

/-- The payload that a line controller sends for a request (R163, R166); no bytes for an event of the table that is no request. -/
def payloadOf : Instr → List Byte
  | .status => []
  | .ident => []
  | .setHead i h => i :: headBytes h
  | .setCurve i ps => i :: ps.flatMap bytes32
  | .setFeature i f => i :: featureBytes f
  | .clearFeature i => [i]
  | .setLimits i l => i :: limitsBytes l
  | .setThermal t => thermalBytes t
  | .setLine l => lineBytes l
  | .setIdentity die revision alloy strands => bytes32 die ++ bytes16 revision ++ [alloy, strands]
  | .readCard part index => [part, index]
  | .bankLoad b => [b]
  | .bankStore b => [b]
  | .bankLock b m => [b, m]
  | .bankInfo => []
  | .setBoot b => [b]
  | .runStart => [0]
  | .billetJoin => [1]
  | .stop => [2]
  | .resume => [3]
  | .runEnd => [4]
  | .runClose => []
  | .withdraw i => [i]
  | .setTrigger m => [m]
  | .triggerOnce => []
  | .headCheck m e => [m, e]
  | .headInfo => []
  | .gaugeLatch m => [m]
  | .gaugeRead i => [i]
  | .trackRead i k => [i, k]
  | .reportRead => []
  | .reportDrop n => bytes16 n
  | .readCounters => []
  | .clearCounters => []
  | .clearFlags m t => bytes16 m ++ [t]
  | .setAlarmMask m => bytes16 m
  | .setWatchdog n => bytes16 n
  | .forceFailsafe => []
  | .clearFailsafe => []
  | .restart => []
  | .powerOn _ _ => []
  | .forwardCount _ => []
  | .reverseCount _ => []
  | .pullerSelectChange => []
  | .cutEdge _ => []
  | .lostCutReport => []
  | .takeCut => []
  | .lineFrame _ => []
  | .lineWaitExpiry _ => []
  | .strandEvaluation _ => []
  | .slotEvaluationEnd => []
  | .scanEvent _ => []
  | .zoneOpenEvent _ => []
  | .zoneUpdateEvent _ => []
  | .zoneCloseEvent _ => []
  | .pyroSample _ _ => []
  | .holdTimerExpiry _ => []
  | .checkLimitExpiry => []
  | .bankStoreEnd _ => []
  | .watchdogExpiry => []
  | .frameGapTimeout => []
  | .linkFrame _ => []
  | .replySent => []
  | .supplyFailure _ => []

/-- A frame of the link: start byte, address, kind, payload length, payload and check value (R154). -/
def frameOf (address kind : Byte) (payload : List Byte) : List Byte :=
  let body := address :: kind :: le16 payload.length ++ payload
  0xA5 :: body ++ bytes16 (crc16 body)

/-- The link address that the straps give (R153). -/
def addressOf (s : Straps) : Byte := byte (s.addr1.toNat * 2 + s.addr0.toNat + 1)

/-- How the framing receiver judges what it has read (R155). -/
inductive Judgement where
  | nothing
  | badLength
  | corrupt
  | whole (kind : Byte) (payload : List Byte)
deriving DecidableEq, Repr

/-- The receiver in FRAME, having read the bytes `got` after the start byte: a foreign frame is passed over, a frame with
the part's own address is judged by its length and its check value (R155). -/
def judgeFrame (own : Byte) (got : List Byte) : Receiver × Judgement :=
  if got.length < 4 then (.frame got, .nothing)
  else
    let n := (word16At got 2).toNat
    let mine := byteAt got 0 == own
    if 1024 < n then (.hunt, if mine then .badLength else .nothing)
    else if got.length < n + 6 then (.frame got, .nothing)
    else if !mine then (.hunt, .nothing)
    else if crc16 (got.take (n + 4)) = word16At got (n + 4) then (.hunt, .whole (byteAt got 1) ((got.drop 4).take n))
    else (.hunt, .corrupt)

/-- One byte received (R155). -/
def Receiver.push (own b : Byte) : Receiver → Receiver × Judgement
  | .hunt => (if b = 0xA5 then .frame [] else .hunt, .nothing)
  | .frame got => judgeFrame own (got ++ [b])

/-- An abandoned frame is counted: its address byte has arrived and is the part's own (R155). -/
def Receiver.abandonsOwn (own : Byte) : Receiver → Bool
  | .hunt => false
  | .frame [] => false
  | .frame (a :: _) => a == own

/-- A frame of the head link: its bytes and the check value over them (R33, R34). -/
def checkedFrame (bs : List Byte) : List Byte := bs ++ bytes16 (crc16 bs)

/-- The TRIGGER frame of a trigger number (R33). -/
def triggerFrame (number : Nat) : List Byte := checkedFrame (le16 number)

/-- The CHECK frame of a head and an exposure class (R33). -/
def checkFrame (head : Fin 8) (exposure : Byte) : List Byte := checkedFrame [byte head.val, exposure]

/-- A line that has passed the size and check value of R34. -/
structure HeadLine where
  head    : Nat
  trigger : Nat
  peak    : Nat
  codes   : List Nat
deriving DecidableEq, Repr

/-- 2-byte little-endian numbers of a list of bytes. -/
def numbers16 : List Byte → List Nat
  | lo :: hi :: rest => (hi ++ lo).toNat :: numbers16 rest
  | _ => []

/-- The line that a frame from the head link carries; `none` where its size is not 1,030 bytes or its check value does not
match (R34). -/
def lineOfFrame (bs : List Byte) : Option HeadLine :=
  if bs.length = 1030 ∧ crc16 (bs.take 1028) = word16At bs 1028 then
    some { head := (byteAt bs 0).toNat, trigger := (word16At bs 1).toNat, peak := (byteAt bs 3).toNat,
           codes := numbers16 ((bs.drop 4).take 1024) }
  else none

/-- The LINE frame of a line, as a head forms it (R34). -/
def frameOfLine (l : HeadLine) : List Byte :=
  checkedFrame (byte l.head :: le16 l.trigger ++ [byte l.peak] ++ l.codes.flatMap le16)

/-- The code of a refusal reason (R159). -/
def reasonCode : Reason → Byte
  | .unknownKind => 1
  | .badLength => 2
  | .badValue => 3
  | .state => 4
  | .running => 5
  | .busy => 6
  | .isProtected => 7
  | .bankEmpty => 8
  | .bankCrc => 9
  | .notReady => 10
  | .notLatched => 11
  | .sequence => 12

/-- The code of a reply status (R158). -/
def statusCode : ReplyStatus → Byte
  | .ok => 0
  | .clamped => 1
  | .deferred => 2
  | .refused => 3

/-- The payload of a reply (R158). -/
def ReplyBody.payload (b : ReplyBody) : List Byte :=
  statusCode b.status :: (match b.reason with
    | some r => reasonCode r
    | none => 0) :: b.fields

/-- The kind byte of the reply to a request of a kind: the kind plus 80h, FFh for a kind of 80h or above (R154). -/
def replyKind (kind : Byte) : Byte := if 0x80 ≤ kind then 0xFF else kind + 0x80

/-- The frame of a reply, with the part's own address (R154). -/
def replyFrame (straps : Straps) (r : Reply) : List Byte := frameOf (addressOf straps) r.kind r.body.payload

/-- An OK reply with its fields. -/
def okReply (fields : List Byte) : ReplyBody := { status := .ok, reason := none, fields := fields }

/-- A CLAMPED reply with its fields. -/
def clampedReply (fields : List Byte) : ReplyBody := { status := .clamped, reason := none, fields := fields }

/-- A DEFERRED reply with its fields. -/
def deferredReply (fields : List Byte) : ReplyBody := { status := .deferred, reason := none, fields := fields }

/-- A REFUSED reply with its reason (R158). -/
def refused (r : Reason) : ReplyBody := { status := .refused, reason := some r, fields := [] }

/-- The link port's own examination of an accepted request: the reply it forms itself, or the command it passes on (R157). -/
inductive Examined where
  | answer (body : ReplyBody)
  | pass (c : Instr)
deriving DecidableEq, Repr

/-- The examination of R157: the kind, then the payload length; a press event code that names no event is answered here
too, since no block is given it (R94; log entry 12). -/
def examine (kind : Byte) (payload : List Byte) : Examined :=
  match lengthOf kind.toNat with
  | none => .answer (refused .unknownKind)
  | some n =>
      if payload.length = n then
        match requestOf kind.toNat payload with
        | some c => .pass c
        | none => .answer (refused .badValue)
      else .answer (refused .badLength)

end Sys2Proof.Machine
end

