-- ==== Sys2Proof/Machine/Ops.lean ====
section
/-! DEFINITION. The named operations over the whole state that the commands share: the update of each block, the gate of an
event, of a request and of a zone event, the coordinates (R21), the slot table's closings and hand-over (R41 to R45), triggers
(R24, R37 to R39), the travel (R17), the forming of a length (R115 to R119), the end of a strand and the return to IDLE (R93,
R101), pending limits (R132). -/

namespace Sys2Proof.Machine

/-- What a command answers. -/
abbrev Answer := Host.Outcome State Fault Refusal

/-- The state with its supply set. -/
def State.withPowered (s : State) (x : Bool) : State := { s with powered := x }

/-- The state with its clock set. -/
def State.withNow (s : State) (x : Nat) : State := { s with now := x }

/-- The state with its travel unit replaced. -/
def State.withRunout (s : State) (x : TravelUnit) : State := { s with runout := x }

/-- The state with its scan assembler replaced. -/
def State.withScan (s : State) (x : ScanAssembler) : State := { s with scan := x }

/-- The state with its thermal records replaced. -/
def State.withThermal (s : State) (x : Vector ThermalRecord 4) : State := { s with thermal := x }

/-- The state with its section engine replaced. -/
def State.withEngine (s : State) (x : SectionEngine) : State := { s with engine := x }

/-- The state with its strand tracker replaced. -/
def State.withTracker (s : State) (x : Tracker) : State := { s with tracker := x }

/-- The state with its verdict unit replaced. -/
def State.withVerdict (s : State) (x : VerdictUnit) : State := { s with verdict := x }

/-- The state with its report unit replaced. -/
def State.withReport (s : State) (x : ReportUnit) : State := { s with report := x }

/-- The state with its card store replaced. -/
def State.withStore (s : State) (x : CardStore) : State := { s with store := x }

/-- The state with its link port replaced. -/
def State.withLink (s : State) (x : LinkPort) : State := { s with link := x }

/-- An event: its effect where the part has supply, nothing where it has none (log entry 13). -/
def State.event (s : State) (k : State → State) : Answer := .next (if s.powered then k s else s)

/-- The link port lets the command be served: no request is in service, or it is the one the port has passed on and it has
not yet been answered (R156, R157; log entry 4). -/
def LinkPort.admits (l : LinkPort) (c : Instr) : Bool :=
  match l.service with
  | none => true
  | some v => v.request == some c && l.reply.isNone

/-- The state after a block has served a request of a kind and given the reply (R157). -/
def State.replying (kind : Byte) (p : State × ReplyBody) : State :=
  p.1.withLink { p.1.link with reply := some { kind := replyKind kind, body := p.2 } }

/-- The kind byte of the request that a command serves (R154). -/
def kindByteOf (c : Instr) : Byte := byte ((kindOf c).getD 0)

/-- A request served by the block that owns its matter: its effect and its reply (R157). -/
def State.request (s : State) (c : Instr) (k : State → State × ReplyBody) : Answer :=
  s.event fun s => if s.link.admits c then State.replying (kindByteOf c) (k s) else s

/-- A request that changes nothing and gives a reply. -/
def answering (r : State → ReplyBody) (s : State) : State × ReplyBody := (s, r s)

/-- A zone or scan event reaches the tracker: the one that the engine sent first, which it then leaves; any, where the engine
has sent none that still waits (R86; log entry 5). -/
def State.takeEvent (s : State) (e : TrackerEvent) (k : State → State) : State :=
  match s.engine.sent with
  | [] => k s
  | head :: rest => if head = e then k (s.withEngine { s.engine with sent := rest }) else s

/-- The clock after a timer with a deadline has run out (log entry 2). -/
def State.reach (s : State) (deadline : Nat) : State := s.withNow (max s.now deadline)

/-- The press is IDLE. -/
def State.pressIdle (s : State) : Bool := s.tracker.press == .idle

/-- The die coordinate of a travel (R21). -/
def dieCoordinate (travel : Nat) : Int := ((travel / 1000 : Nat) : Int)

/-- The head coordinate of a travel (R21). -/
def headCoordinate (l : LineSection) (travel : Nat) : Int := dieCoordinate travel - (l.dHead : Int)

/-- The saw coordinate of a travel (R21). -/
def sawCoordinate (l : LineSection) (travel : Nat) : Int := dieCoordinate travel - (l.dSaw : Int)

/-- The present die coordinate (R22). -/
def State.atDie (s : State) : Int := dieCoordinate s.runout.travel

/-- The present head coordinate (R22). -/
def State.atHead (s : State) : Int := headCoordinate s.store.card.line s.runout.travel

/-- The heads enabled on a card (R2, R37). -/
def enabledHeads (c : Card) : List (Fin 8) := headsInOrder.filter fun i => c.heads[i].enabled

/-- The slots 0 to 3 in increasing number. -/
abbrev slotsInOrder : List (Fin 4) := [0, 1, 2, 3]

/-- The FREE slot with the lowest number (R37). -/
def ScanAssembler.lowestFree (a : ScanAssembler) : Option (Fin 4) := slotsInOrder.find? fun i => a.slots[i].isNone

/-- The number of slots that are not FREE (R36). -/
def ScanAssembler.inFlight (a : ScanAssembler) : Nat := slotsInOrder.countP fun i => a.slots[i].isSome

/-- How many numbers were given from a slot's own up to the next trigger number (R35; log entry 17). -/
def ScanAssembler.age (a : ScanAssembler) (i : Fin 4) : Nat :=
  match a.slots[i] with
  | some k => (a.nextNumber + 65535 - k.number) % 65535
  | none => 0

/-- A slot is not FREE and satisfies `p`. -/
def ScanAssembler.holds (a : ScanAssembler) (p : Slot → Bool) (i : Fin 4) : Bool :=
  match a.slots[i] with
  | some k => p k
  | none => false

/-- The oldest slot that satisfies `p` (R35). -/
def ScanAssembler.oldest (a : ScanAssembler) (p : Slot → Bool) : Option (Fin 4) :=
  slotsInOrder.foldl (fun best i =>
    if a.holds p i && (match best with
      | some j => decide (a.age j < a.age i)
      | none => true)
    then some i else best) none

/-- The slot has the head's line (R36). -/
def Slot.received (k : Slot) (h : Fin 8) : Bool := k.lines.any fun l => l.head == h

/-- The received head set equals the expected head set (R41). -/
def Slot.complete (k : Slot) : Bool := k.expected.all k.received

/-- The next trigger number after `n` (R35). -/
def nextTriggerNumber (n : Nat) : Nat := if 65534 ≤ n then 0 else n + 1

/-- A slot replaced. -/
def ScanAssembler.putSlot (a : ScanAssembler) (i : Fin 4) (k : Option Slot) : ScanAssembler := { a with slots := setAt a.slots i k }

/-- The strands that a slot is evaluated for, from the readings at its start (R74). -/
def evaluatedStrands (c : Card) (stale : Bool) (strands : Vector Strand 4) (k : Slot) : List (Fin 4) :=
  if k.manual then strandsInOrder.filter fun i => decide (i.val < c.strands)
  else if stale then []
  else strandsInOrder.filter fun i =>
    decide (i.val < c.strands) && strands[i].active && decide (0 ≤ k.x)
      && (match strands[i].tail with
        | some t => decide (k.x < t)
        | none => true)

/-- A slot is handed over: it becomes EVALUATING and its evaluation begins (R45, R46, R74, R90). -/
def State.handOver (i : Fin 4) (k : Slot) (s : State) : State :=
  let held : Slot := { k with phase := .evaluating }
  let todo := evaluatedStrands s.store.card s.engine.stale[i] s.tracker.strands held
  let begun : Evaluation := { slot := i, card := s.store.card, track := !k.manual, todo := todo }
  (s.withScan (s.scan.putSlot i (some held))).withEngine { s.engine with evaluation := some begun }

/-- Hand-over is tried: the oldest slot that is not FREE is handed over if it is CLOSED and no slot is EVALUATING (R45). -/
def State.tryHandOver (s : State) : State :=
  if slotsInOrder.any (s.scan.holds fun k => k.phase == .evaluating) then s
  else
    match s.scan.oldest fun _ => true with
    | none => s
    | some i =>
        match s.scan.slots[i] with
        | none => s
        | some k => if k.phase = .closed then s.handOver i k else s

/-- The slot becomes CLOSED and hand-over is tried (R41, R42, R45). -/
def State.closeSlot (i : Fin 4) (k : Slot) (s : State) : State :=
  (s.withScan (s.scan.putSlot i (some { k with phase := .closed }))).tryHandOver

/-- A missed head enters FAULT (R44). -/
def HeadEntry.enters (e : HeadEntry) : Bool := decide (8 ≤ bump 255 e.miss 1) && e.state != .fault

/-- The entry of a missed head (R44). -/
def HeadEntry.missed (e : HeadEntry) : HeadEntry :=
  { e with miss := bump 255 e.miss 1, state := if e.enters then .fault else e.state }

/-- A slot that closes finds the head missed: expected, not received, and enabled now (R44). -/
def Slot.misses (c : Card) (k : Slot) (h : Fin 8) : Bool := k.expected.contains h && !k.received h && c.heads[h].enabled

/-- The missing heads of a closing slot are missed (R44). -/
def State.missHeads (k : Slot) (s : State) : State :=
  let missing := k.misses s.store.card
  let heads := Vector.ofFn fun h => if missing h then s.scan.heads[h].missed else s.scan.heads[h]
  let raised := headsInOrder.any fun h => missing h && s.scan.heads[h].enters
  (s.withScan { s.scan with heads := heads }).withReport (s.report.raiseIf raised .headFault)

/-- A slot closes by line-wait expiry or force-close (R38, R42, R44). -/
def State.closeMissing (i : Fin 4) (k : Slot) (s : State) : State := (s.missHeads k).closeSlot i k

/-- The oldest OPEN slot, if any, is force-closed (R38 step 3). -/
def State.forceClose (s : State) : State :=
  match s.scan.oldest fun k => k.phase == .waiting with
  | none => s
  | some i =>
      match s.scan.slots[i] with
      | none => s
      | some k => s.closeMissing i k

/-- A skip added to the pending-skip record (R39). -/
def addSkip (x : Int) : Option Skips → Option Skips
  | none => some { count := 1, first := x }
  | some k => some { k with count := bump16 k.count }

/-- The record of a slot that a trigger takes (R37). -/
def State.newSlot (manual : Bool) (travel : Nat) (s : State) : Slot :=
  let c := s.store.card
  { phase := .waiting, number := s.scan.nextNumber, x := headCoordinate c.line travel, manual := manual,
    capture := Vector.ofFn fun i => s.thermal[i].capture, expected := enabledHeads c, lines := [],
    deadline := s.now + c.line.lineWait, skips := if manual then none else s.scan.skips }

/-- A trigger takes FREE slot `i` and its TRIGGER frame is sent; with no head enabled the slot closes at once (R33, R35, R37, R41). -/
def State.takeSlot (i : Fin 4) (manual : Bool) (travel : Nat) (s : State) : State :=
  let k := s.newSlot manual travel
  let taken := s.withScan
    { s.scan with nextNumber := nextTriggerNumber s.scan.nextNumber, slots := setAt s.scan.slots i (some k),
                  skips := if manual then s.scan.skips else none, headTx := s.scan.headTx ++ [triggerFrame k.number] }
  if k.expected.isEmpty then taken.closeSlot i k else taken

/-- A distance trigger that finds no FREE slot becomes a skip (R38, R39). -/
def State.skipTrigger (travel : Nat) (s : State) : State :=
  ((s.withScan { s.scan with skips := addSkip (headCoordinate s.store.card.line travel) s.scan.skips }).withReport
    s.report.countSkipped).forceClose

/-- A distance trigger of a trigger travel reaches the scan assembler (R28, R37, R38). -/
def State.distanceTrigger (travel : Nat) (s : State) : State :=
  match s.scan.lowestFree with
  | some i => s.takeSlot i false travel
  | none => s.skipTrigger travel

/-- One crossing of the pitch in force: the trigger fires and the generator goes on (R24 steps 1 to 3). -/
def State.crossPitch (s : State) : State :=
  let r := s.runout
  (s.withRunout { r with remainder := r.remainder - r.pitch, pitch := r.nextPitch.getD r.pitch, nextPitch := none }).distanceTrigger
    (r.travel - r.remainder + r.pitch)

/-- The loop of R24; it ends by itself within as many rounds as the remainder has µm. -/
def State.crossings : Nat → State → State
  | 0, s => s
  | n + 1, s => if s.runout.pitch ≤ s.runout.remainder then State.crossings n s.crossPitch else s

/-- The greatest travel (R17). -/
def travelTop : Nat := 1099511627775

/-- The greatest reverse deficit (R17). -/
def deficitTop : Nat := 4294967295

/-- The generator takes increases of the travel: the press is not IDLE and the mode is DISTANCE (R23, R24). -/
def State.generates (s : State) : Bool := !s.pressIdle && s.runout.mode == .distance

/-- The travel grows by `d` µm, of which what fits reaches the trigger generator (R17, R24). -/
def State.growTravel (d : Nat) (s : State) : State :=
  let travel := bump travelTop s.runout.travel d
  let grown := s.withRunout { s.runout with travel := travel }
  if s.generates then
    let remainder := s.runout.remainder + (travel - s.runout.travel)
    State.crossings remainder (grown.withRunout { grown.runout with remainder := remainder })
  else grown

/-- The scale of a channel on a card (R16). -/
def scaleOf (l : LineSection) : Puller → Nat
  | .a => l.scaleA
  | .b => l.scaleB

/-- The deficit of a channel (R17). -/
def TravelUnit.deficit (r : TravelUnit) : Puller → Nat
  | .a => r.deficitA
  | .b => r.deficitB

/-- The deficit of a channel set. -/
def TravelUnit.withDeficit (r : TravelUnit) (ch : Puller) (d : Nat) : TravelUnit :=
  match ch with
  | .a => { r with deficitA := d }
  | .b => { r with deficitB := d }

/-- One strand of the tracker replaced. -/
def Tracker.putStrand (t : Tracker) (i : Fin 4) (st : Strand) : Tracker := { t with strands := setAt t.strands i st }

/-- The state with one strand replaced. -/
def State.withStrand (s : State) (i : Fin 4) (st : Strand) : State := s.withTracker (s.tracker.putStrand i st)

/-- What the report unit counts of an arrival at a strand (R108, R114). -/
def ReportUnit.countTracked (late coarsened : Bool) (r : ReportUnit) : ReportUnit :=
  let r' := if late then r.countLateResult else r
  if coarsened then r'.countCoarsening else r'

/-- An arrival taken by a strand: the strand after it, and what is counted. -/
def State.withTracked (s : State) (i : Fin 4) (t : Tracked) : State :=
  (s.withStrand i t.strand).withReport (s.report.countTracked t.late t.coarsened)

/-- A length of strand `i` up to `upper` is formed, judged, reported and left behind (R116 to R121, R126 to R128). -/
def State.formLength (origin : Origin) (i : Fin 4) (upper : Int) (s : State) : State :=
  let c := s.store.card
  let st := s.tracker.strands[i]
  let r := lengthRecord c s.store.digest s.thermal[i] s.verdict.failsafe origin i st upper
  ((s.withStrand i (st.advance c upper)).withVerdict { s.verdict with last := setAt s.verdict.last i (some r.verdict) }).withReport
    (s.report.take r)

/-- A final length of strand `i` at head coordinate `h`, where its upper end is above its lower (R99, R100, R119). -/
def State.finalLength (origin : Origin) (i : Fin 4) (h : Int) (s : State) : State :=
  let st := s.tracker.strands[i]
  if st.lastCut < finalUpper st h then s.formLength origin i (finalUpper st h) else s

/-- No entry stands in the pending-limits list (R140). -/
def CardStore.nonePending (x : CardStore) : Bool := x.pendingLimits.toList.all Option.isNone

/-- The features of a card under pending limits (R132). -/
def limitedFeatures (fs : Vector (Option Feature) 32) (ls : Vector (Option Limits) 32) : Vector (Option Feature) 32 :=
  Vector.ofFn fun f =>
    match fs[f], ls[f] with
    | some x, some l => some { x with limits := l }
    | x, _ => x

/-- The working card replaced, with its digest recomputed (R134, R143). -/
def CardStore.edit (x : CardStore) (c : Card) : CardStore := { x with card := c, digest := digestOf c }

/-- The pending-limits list emptied. -/
def CardStore.dropPending (x : CardStore) : CardStore := { x with pendingLimits := Vector.replicate 32 none }

/-- The pending-limits list is applied and emptied (R101, R132). -/
def CardStore.applyPending (x : CardStore) : CardStore :=
  if x.nonePending then x
  else (x.edit { x.card with features := limitedFeatures x.card.features x.pendingLimits }).dropPending

/-- No strand is in NOSE, RUNNING or TAILING (R101). -/
def Tracker.allEnded (t : Tracker) : Bool := strandsInOrder.all fun i => !t.strands[i].active

/-- The press returns to IDLE (R101). -/
def State.returnToIdle (s : State) : State :=
  (s.withTracker { s.tracker with press := .idle }).withStore s.store.applyPending

/-- A strand enters ENDED; with the last of them the press returns to IDLE (R93, R101). -/
def State.endStrand (i : Fin 4) (s : State) : State :=
  let ended := s.withStrand i s.tracker.strands[i].ended
  if ended.tracker.allEnded then ended.returnToIdle else ended

/-- The strand's tail lies at or below the cut (R115 step 5). -/
def Strand.tailReached (c : Int) (st : Strand) : Bool :=
  st.state == .tailing && (match st.tail with
    | some t => decide (t ≤ c)
    | none => false)

/-- The cut at `c` reaches the strand above its last cut (R115). -/
def Strand.takesCut (c : Int) (st : Strand) : Bool :=
  (st.state == .running || st.state == .tailing) && decide (st.lastCut < c)

/-- The cut at `c` forms a length on the strand (R115 step 3). -/
def Strand.formsLength (c : Int) (st : Strand) : Bool := st.takesCut c && decide (st.lastCut < cutUpper st c)

/-- The cut at `c` taken by strand `i` (R115). -/
def State.cutStrand (c : Int) (s : State) (i : Fin 4) : State :=
  let st := s.tracker.strands[i]
  if st.takesCut c then
    let formed := if st.formsLength c then s.formLength .cut i (cutUpper st c) else s
    if st.tailReached c then formed.endStrand i else formed
  else s

/-- A lost-cut report taken: the mark on every strand in NOSE, RUNNING or TAILING (R30). -/
def Tracker.markLost (t : Tracker) : Tracker :=
  { t with strands := Vector.ofFn fun i =>
      if t.strands[i].active then { t.strands[i] with cutLost := true } else t.strands[i] }

/-- The evaluation in hand goes on for the record only (R90). -/
def SectionEngine.recordOnly (e : SectionEngine) : SectionEngine :=
  { e with evaluation := e.evaluation.map fun v => { v with track := false } }

/-- Every persistence record cleared (R80). -/
def clearedPersistence : Vector (Vector Persistence 32) 4 := Vector.replicate 4 (Vector.replicate 32 Persistence.clear)

/-- The persistence records of one feature cleared on every strand (R71, R72, R80). -/
def SectionEngine.clearFeature (e : SectionEngine) (f : Fin 32) : SectionEngine :=
  { e with persistence := Vector.ofFn fun i => setAt e.persistence[i] f Persistence.clear }

/-- The engine after RUN_START or BANK_LOAD: persistence cleared, last results emptied, an evaluation in hand for the record
only (R80, R88, R90). -/
def SectionEngine.forget (e : SectionEngine) : SectionEngine :=
  { e.recordOnly with persistence := clearedPersistence, last := Vector.replicate 4 none }

/-- The gauge latches emptied (R170). -/
def ReportUnit.emptyLatches (r : ReportUnit) : ReportUnit := { r with latches := Vector.replicate 4 none }

/-- The generator takes a changed scan pitch: in force while the press is IDLE, next otherwise (R26). -/
def TravelUnit.takePitch (idle : Bool) (old new : Nat) (r : TravelUnit) : TravelUnit :=
  if old = new then r
  else if idle then { r with pitch := new, nextPitch := none } else { r with nextPitch := some new }

/-- The strands follow a changed strand count (R92). -/
def Tracker.follow (old new : Nat) (t : Tracker) : Tracker :=
  if old = new then t else { t with strands := Vector.ofFn fun i => t.strands[i].follow new i }

/-- Every strand takes a new thermal section (R63). -/
def State.takeThermal (t : ThermalSection) (s : State) : State :=
  s.withThermal (Vector.ofFn fun i => s.thermal[i].takeSection t s.now)

/-- A head-table entry of a card on which the head is enabled or not, with both counts at 0 (R48). -/
def HeadEntry.fresh (enabled : Bool) (check : CheckResult) : HeadEntry :=
  { state := if enabled then .ok else .offline, miss := 0, sparse := 0, lastLine := none, check := check }

/-- A head-table entry when a card with the head enabled or not takes the place of one (R3, R48): kept where the head was and
stays enabled or was and stays disabled. -/
def HeadEntry.follow (was enabled : Bool) (e : HeadEntry) : HeadEntry := if was = enabled then e else HeadEntry.fresh enabled e.check

/-- The state after an edit of the working card that touches no other block (R139). -/
def State.edit (s : State) (c : Card) : State := s.withStore (s.store.edit c)

/-- The timer's deadline when the watchdog is started (R160 to R162). -/
def watchdogDeadline (interval now : Nat) : Option Nat := if interval = 0 then none else some (now + interval)

end Sys2Proof.Machine
end

