-- ==== Sys2Proof/Machine/Replies.lean ====
section
/-! DEFINITION. The fields of the replies, byte by byte (R54, R113, R141, R152, R163 to R166, R168, R171, R176), and the
readiness of a card (R142). -/

namespace Sys2Proof.Machine

/-- An absent one-byte index or enumerated value (R163). -/
def absent1 : Byte := 0xFF

/-- The readiness of a card: 0, or the number of the first check that fails (R142). -/
def readiness (c : Card) : Nat :=
  let strands := strandsInOrder.filter fun i => decide (i.val < c.strands)
  if c.strands = 0 then 1
  else if !strands.all (fun i => headsInOrder.any fun h => c.heads[h].enabled && c.heads[h].strand == i) then 2
  else if !featuresInOrder.any (fun f => c.features[f].isSome) then 3
  else if !strands.all (fun i => featuresInOrder.all fun f =>
      match c.features[f] with
      | none => true
      | some x => (servingHead c i x.placeA.position).isSome
                    && (match x.placeB with
                        | some b => (servingHead c i b.position).isSome
                        | none => true)) then 4
  else if c.line.dSaw < c.line.dHead + 2000 then 5
  else if !c.thermal.increasing then 6
  else 0

/-- A puller (R164). -/
def pullerCode : Puller → Byte
  | .a => 0
  | .b => 1

/-- A trigger mode, in the order of R23. -/
def modeCode : TriggerMode → Byte
  | .distance => 0
  | .halt => 1

/-- A press state, in the order of R91. -/
def pressCode : Press → Byte
  | .idle => 0
  | .running => 1
  | .stopped => 2
  | .ending => 3

/-- A strand state, in the order of R92. -/
def strandCode : StrandState → Byte
  | .absent => 0
  | .idle => 1
  | .nose => 2
  | .running => 3
  | .tailing => 4
  | .ended => 5

/-- A head state, in the order of R48. -/
def headCode : HeadState → Byte
  | .offline => 0
  | .ok => 1
  | .fault => 2
  | .blinded => 3

/-- A check result, in the order of R54. -/
def checkCode : CheckResult → Byte
  | .none => 0
  | .pending => 1
  | .pass => 2
  | .noLine => 3
  | .dark => 4
  | .bright => 5
  | .sparse => 6

/-- A verdict of a length record (R165). -/
def verdictCode : Verdict → Byte
  | .accept => 0
  | .reject => 1
  | .nose => 2
  | .tail => 3
  | .short => 4

/-- A last verdict, with NONE first (R164). -/
def lastVerdictCode : Option Verdict → Byte
  | none => 0
  | some v => verdictCode v + 1

/-- The failsafe state (R164). -/
def failsafeCode : Failsafe → Byte
  | .normal => 0
  | .failsafe => 1

/-- The bank engine's state (R164). -/
def engineCode : BankEngine → Byte
  | .idle => 0
  | .storing _ => 1
  | .suspended _ => 2

/-- The bank being stored, FFh when the engine is IDLE (R164). -/
def engineBank : BankEngine → Byte
  | .idle => absent1
  | .storing j => byte j.bank.val
  | .suspended j => byte j.bank.val

/-- The last store outcome (R164). -/
def outcomeCode : StoreOutcome → Byte
  | .none => 0
  | .done _ => 1
  | .fail _ => 2

/-- The bank of the last store outcome, FFh with NONE (R164). -/
def outcomeBank : StoreOutcome → Byte
  | .none => absent1
  | .done b => byte b.val
  | .fail b => byte b.val

/-- The boot-bank setting, FFh for none (R164). -/
def bootCode : Option (Fin 8) → Byte
  | some b => byte b.val
  | none => absent1

/-- A lock state (R149). -/
def lockCode : Lock → Byte
  | .unlocked => 0
  | .held => 1
  | .fixed => 2

/-- A zone class (R165). -/
def classCode : ZoneClass → Byte
  | .dimension => 0
  | .blind => 1
  | .weld => 2
  | .stop => 3
  | .merged => 4

/-- A zone severity (R165). -/
def severityCode : Severity → Byte
  | .minor => 0
  | .major => 1
  | .cutout => 2

/-- Sides (R165). -/
def sidesCode : Sides → Byte
  | .low => 0
  | .high => 1
  | .both => 2

/-- Bit `i` for each element `i` of a set held in one byte (R163). -/
def byteMask {n : Nat} (xs : List (Fin n)) (p : Fin n → Bool) : Byte :=
  xs.foldl (fun m i => if p i then m ||| BitVec.twoPow 8 i.val else m) 0

/-- Bit `f` for each feature `f` of a set (R163). -/
def featureMask (p : Fin 32 → Bool) : Word32 :=
  featuresInOrder.foldl (fun m f => if p f then m ||| BitVec.twoPow 32 f.val else m) 0

/-- Source classes (R165). -/
def sourcesByte (s : Sources) : Byte :=
  byte (s.dimension.toNat + s.blind.toNat * 2 + s.weld.toNat * 4 + s.stop.toNat * 8)

/-- Reasons (R165). -/
def reasonsWord (r : Reasons) : List Byte :=
  le16 (r.dimension.toNat + r.blind.toNat * 2 + r.weld.toNat * 4 + r.stop.toNat * 8 + r.cropSpan.toNat * 16
    + r.failsafe.toNat * 32 + r.cutLost.toNat * 64 + r.withdrawn.toNat * 128 + r.aborted.toNat * 256)

/-- Sticky flags or an alarm mask, bits 11 to 15 reading 0 (R164, R174). -/
def flagBytes (w : BitVec 11) : List Byte := bytes16 (w.setWidth 16)

/-- The number of entries of the pending-limits list (R140). -/
def CardStore.pendingCount (x : CardStore) : Nat := featuresInOrder.countP fun f => x.pendingLimits[f].isSome

/-- What the STATUS reply carries of one strand's thermal record (R164). -/
def thermalFields (r : ThermalRecord) : List Byte := le16 r.temperature ++ [byte r.band.val, yesNo r.fallback]

/-- The fields of the STATUS reply (R164). -/
def statusFields (s : State) : List Byte :=
  le64 s.runout.travel ++ [pullerCode s.runout.active, byte s.runout.cuts.length, pressCode s.tracker.press]
    ++ s.tracker.strands.toList.map (fun st => strandCode st.state)
    ++ s.thermal.toList.flatMap thermalFields
    ++ s.scan.heads.toList.map (fun e => headCode e.state)
    ++ [byte s.scan.inFlight]
    ++ le16 (match s.scan.skips with
        | some k => k.count
        | none => 0)
    ++ [yesNo s.scan.check.isSome, failsafeCode s.verdict.failsafe]
    ++ s.verdict.last.toList.map lastVerdictCode
    ++ [byteMask strandsInOrder s.rejectLine, yesNo s.alarmLine]
    ++ bytes32 s.store.digest
    ++ [byte (readiness s.store.card), byte s.store.pendingCount, bootCode s.store.boot, engineCode s.store.engine,
        engineBank s.store.engine, outcomeCode s.store.lastOutcome, outcomeBank s.store.lastOutcome]
    ++ flagBytes s.report.flags ++ [byte s.report.queue.length]

/-- The fields of the IDENT reply (R164). -/
def identFields (x : Straps) : List Byte :=
  [0x4C, 0x4F, 0x48, 0x46, 0x45, 0x4C, 0x44, 0, 0x57, 0x34, 0x38, 0x30, 0, 0, 0, 0, 1, addressOf x, yesNo x.rate]
    ++ [4, 8, 512, 4, 32, 8, 4, 4, 64, 48, 12, 64, 8, 32, 1024].flatMap le16

/-- A head record in the layout of R166. -/
def headFields (h : HeadRecord) : List Byte :=
  [yesNo h.enabled, byte h.strand.val, byte h.position.val, yesNo h.mirrorColumn, yesNo h.mirrorRange, yesNo h.swap]
    ++ le16 h.c0 ++ le16 h.pitch ++ leInt h.offU ++ leInt h.offV ++ le16 h.minPoints ++ [byte h.dark, byte h.bright]

/-- The limits block (R166). -/
def limitsFields (l : Limits) : List Byte :=
  leInt l.nominal ++ leInt l.lower ++ leInt l.upper ++ [byte l.kOpen, byte l.kClose, gradeCode l.severity]

/-- Position B and window B in a reply, FFh and FFFFh where absent (R166). -/
def placeBFields : Option Place → List Byte
  | some b => byte b.position.val :: le16 b.window.first ++ le16 b.window.last
  | none => [0xFF, 0xFF, 0xFF, 0xFF, 0xFF]

/-- A feature record in the layout of R166. -/
def featureFields (f : Feature) : List Byte :=
  le16 f.featureId ++ [kindCode f.kind, byte f.placeA.position.val] ++ le16 f.placeA.window.first ++ le16 f.placeA.window.last
    ++ placeBFields f.placeB ++ le16 f.minPoints ++ [yesNo f.trended] ++ limitsFields f.limits

/-- A thermal section, coded by R163 in the order of R62. -/
def thermalSectionFields (t : ThermalSection) : List Byte :=
  le16 t.u0 ++ le16 t.u1 ++ le16 t.u2 ++ le16 t.k0 ++ le16 t.k1 ++ le16 t.k2 ++ le16 t.k3 ++ le16 t.hysteresis
    ++ le16 t.defaultTemp ++ le16 t.hold

/-- A line section, coded by R163 in the order of R136. -/
def lineSectionFields (l : LineSection) : List Byte :=
  le32 l.dHead ++ le32 l.dSaw ++ le32 l.scanPitch ++ le32 l.scaleA ++ le32 l.scaleB ++ le32 l.weldLead ++ le32 l.weldLength
    ++ le32 l.stopMargin ++ [gradeCode l.stopSeverity] ++ le32 l.noseCrop ++ le32 l.tailCrop ++ le32 l.minLength
    ++ le32 l.mergeGap ++ le16 l.blindLimit ++ [gradeCode l.blindSeverity] ++ le16 l.lineWait

/-- The entries of the pending-limits list in increasing feature index, after their count (R141, R166). -/
def pendingFields (x : CardStore) : List Byte :=
  byte x.pendingCount :: featuresInOrder.flatMap fun f =>
    match x.pendingLimits[f] with
    | some l => byte f.val :: limitsFields l
    | none => []

/-- What READ_CARD returns after the digest; `none` for an unknown section code or an index out of range (R141). -/
def cardFields (x : CardStore) (part index : Byte) : Option (List Byte) :=
  match part.toNat with
  | 0 => some (le32 x.card.die ++ le16 x.card.revision ++ [byte x.card.alloy, byte x.card.strands])
  | 1 => (indexOf 8 index).map fun i => headFields x.card.heads[i]
  | 2 => (indexOf 8 index).map fun i => x.card.curves[i].toList.flatMap leInt
  | 3 => (indexOf 32 index).map fun i =>
      match x.card.features[i] with
      | some f => 1 :: featureFields f
      | none => [0]
  | 4 => some (thermalSectionFields x.card.thermal)
  | 5 => some (lineSectionFields x.card.line)
  | 6 => some (pendingFields x)
  | _ => none

/-- A bank record (R144, R152). -/
def bankFields (b : Bank) : List Byte :=
  yesNo b.valid :: le32 b.die ++ le16 b.revision ++ bytes32 b.digest ++ [lockCode b.lock] ++ le16 b.storeCount

/-- The fields of the BANK_INFO reply (R152). -/
def bankInfoFields (x : CardStore) : List Byte :=
  x.banks.toList.flatMap bankFields
    ++ [bootCode x.boot, engineCode x.engine, engineBank x.engine, outcomeCode x.lastOutcome, outcomeBank x.lastOutcome]

/-- What HEAD_INFO returns of one head (R54): the valid-point count of the last line FFFFh when absent, the peak after a
presence byte (R163). -/
def headInfoEntry (enabled : Bool) (e : HeadEntry) : List Byte :=
  [yesNo enabled, headCode e.state, byte e.miss, byte e.sparse]
    ++ (match e.lastLine with
        | some l => le16 l.valid ++ [1, byte l.peak]
        | none => [0xFF, 0xFF, 0, 0])
    ++ [checkCode e.check]

/-- The fields of the HEAD_INFO reply (R54). -/
def headInfoFields (s : State) : List Byte :=
  headsInOrder.flatMap (fun i => headInfoEntry s.store.card.heads[i].enabled s.scan.heads[i]) ++ [yesNo s.scan.check.isSome]

/-- A result of a last-results record, FFh for an absent feature, then h and w (R171). -/
def resultFields : Option FeatureResult → List Byte
  | none => 0xFF :: leInt 0 ++ leInt 0
  | some .missing => 3 :: leInt 0 ++ leInt 0
  | some (.found .inside h w) => 0 :: leInt h ++ leInt w
  | some (.found .low h w) => 1 :: leInt h ++ leInt w
  | some (.found .high h w) => 2 :: leInt h ++ leInt w

/-- The fields of the GAUGE_READ reply (R171). In an empty record the byte of whether the slot was manual is no (DESIGN CHOICE, log
entry 26: R171 does not give it). -/
def gaugeFields : Option LastResults → List Byte
  | some r =>
      1 :: le16 r.number ++ leInt r.x ++ le16 r.temperature ++ [byte r.band.val, yesNo r.manual]
        ++ r.features.toList.flatMap resultFields
  | none =>
      0 :: le16 0 ++ leInt 0 ++ le16 0 ++ [0, 0] ++ (Vector.replicate 32 (none : Option FeatureResult)).toList.flatMap resultFields

/-- A zone entry (R165). -/
def zoneFields (z : ClosedZone) : List Byte :=
  le16 z.number ++ [classCode z.cls]
    ++ [match z.feature with
        | some f => byte f.val
        | none => absent1]
    ++ [severityCode z.severity] ++ leInt z.start ++ leInt z.finish
    ++ [match z.sides with
        | some x => sidesCode x
        | none => absent1]
    ++ (match z.worst with
        | some w => leInt w.excess ++ leInt w.w
        | none => leInt 0 ++ leInt 0)
    ++ le16 (z.billet.getD 0) ++ [sourcesByte z.sources]

/-- A trend entry (R165). -/
def trendFields (t : TrendEntry) : List Byte :=
  byte t.feature.val :: yesNo t.extreme.least.isSome :: leInt (t.extreme.least.getD 0) ++ leInt (t.extreme.greatest.getD 0)
    ++ le16 t.extreme.missing

/-- A length record (R165). -/
def recordFields (r : LengthRecord) : List Byte :=
  le16 r.sequence ++ [byte r.strand.val] ++ le16 r.index ++ leInt r.lower ++ leInt r.upper ++ leInt r.hot ++ leInt r.cold
    ++ le16 r.tMean ++ [yesNo r.fallback, verdictCode r.verdict] ++ reasonsWord r.reasons ++ le16 r.firstBillet ++ le16 r.lastBillet
    ++ bytes32 r.digest ++ [byte r.trends.length, byte r.zones.length] ++ le16 r.omitted
    ++ r.trends.flatMap trendFields ++ r.zones.flatMap zoneFields

/-- The overflow tally (R168, R173). -/
def tallyFields (t : Tally) : List Byte := le32 t.lengths ++ le32 t.rejects ++ le32 t.millis

/-- The fields of the REPORT_READ reply (R168). -/
def reportFields (u : ReportUnit) : List Byte :=
  byte u.queue.length :: tallyFields u.tally ++ (match u.queue with
    | r :: _ => recordFields r
    | [] => [])

/-- The nine counters in the order of R176. -/
def counterFields (c : Counters) : List Byte :=
  le16 c.linkCrc ++ le16 c.overrun ++ le16 c.lineCrc ++ le16 c.duplicate ++ le16 c.lateLine ++ le16 c.skipped ++ le16 c.lateResult
    ++ le16 c.coarsening ++ le16 c.lostCut

/-- The starts of a strand's open zones (R113). -/
def Strand.openStarts (st : Strand) : List Int :=
  st.dimensions.toList.filterMap (fun o => o.map OpenDimension.start) ++ st.blinds.toList.filterMap (fun o => o.map OpenBlind.start)

/-- The least of a list, if it has any element. -/
def leastOf : List Int → Option Int
  | [] => none
  | x :: rest => some (rest.foldl min x)

/-- A coordinate that may be absent (R163). -/
def coordinateFields : Option Int → List Byte
  | some x => leInt x
  | none => bytes32 0x80000000

/-- The open-table summary of a strand (R113). -/
def openFields (st : Strand) : List Byte :=
  [byte (featuresInOrder.countP fun f => st.dimensions[f].isSome), byte (featuresInOrder.countP fun f => st.blinds[f].isSome)]
    ++ bytes32 (featureMask fun f => st.dimensions[f].isSome) ++ bytes32 (featureMask fun f => st.blinds[f].isSome)
    ++ coordinateFields (leastOf st.openStarts)

/-- The fields of the TRACK_READ reply for a strand from a starting index on (R113). -/
def trackFields (st : Strand) (start : Nat) : List Byte :=
  [strandCode st.state] ++ leInt st.nose ++ coordinateFields st.tail ++ leInt st.lastCut ++ le16 st.billet ++ le16 st.lowerBillet
    ++ le16 st.lengthIndex ++ le16 st.nextZone ++ [yesNo st.cutLost, byte st.closed.length]
    ++ ((st.closed.drop start).take 8).flatMap zoneFields ++ openFields st

/-- The fields of the SET_TRIGGER reply (R25): an absent next pitch is FFFFFFFFh (R163). -/
def triggerFields (r : TravelUnit) : List Byte :=
  modeCode r.mode :: le32 r.pitch ++ (match r.nextPitch with
    | some p => le32 p
    | none => bytes32 0xFFFFFFFF) ++ le64 r.remainder

/-- The fields of the reply to an accepted press event (R94). -/
def pressFields (code : Byte) (p : Int) (after : Press) : List Byte := code :: leInt p ++ [pressCode after]

end Sys2Proof.Machine
end

