-- ==== Sys2Proof/Machine/Resets.lean ====
section
/-! DEFINITION. The two resets: the values that each block takes at power-on and at RESTART, the check of a bank's content and
the card that a bank gives (R145, R150), and what a supply failure leaves of a non-volatile write (R151). -/

namespace Sys2Proof.Machine

/-- The travel unit at power-on and after RESTART on a card (R20, R23, R32). -/
def TravelUnit.fresh (c : Card) (active : Puller) : TravelUnit :=
  { active := active, deficitA := 0, deficitB := 0, travel := 0, mode := .distance, pitch := c.line.scanPitch, nextPitch := none,
    remainder := 0, cuts := [] }

/-- The scan assembler at power-on and after RESTART on a card (R35, R36, R39, R48, R53); the log of sent frames is given. -/
def ScanAssembler.fresh (c : Card) (headTx : List (List Byte)) : ScanAssembler :=
  { nextNumber := 0, slots := Vector.replicate 4 none, skips := none,
    heads := Vector.ofFn fun i => HeadEntry.fresh c.heads[i].enabled .none, check := none, headTx := headTx }

/-- The thermal unit at power-on and after RESTART (R56). -/
def freshThermal (t : ThermalSection) (now : Nat) : Vector ThermalRecord 4 := Vector.replicate 4 (ThermalRecord.fresh t now)

/-- The section engine at power-on and after RESTART (R75, R80, R88, R90). -/
def SectionEngine.fresh : SectionEngine :=
  { stale := Vector.replicate 4 false, persistence := clearedPersistence, last := Vector.replicate 4 none, evaluation := none,
    sent := [] }

/-- The strand tracker at power-on and after RESTART (R91, R92). -/
def Tracker.fresh (count : Nat) : Tracker :=
  { press := .idle, strands := Vector.ofFn fun i => Strand.fresh (if i.val < count then .idle else .absent) 0,
    reports := 0, reportsDue := 0 }

/-- The report unit at power-on (R121, R167, R170, R172, R174, R176). -/
def ReportUnit.fresh : ReportUnit :=
  { nextSequence := 0, queue := [], tally := Tally.zero, latches := Vector.replicate 4 none, flags := Flag.powerOn.bit, mask := 0,
    counters := Counters.zero }

/-- The report unit after RESTART (R121, R167, R170, R172, R174, R176). -/
def ReportUnit.restarted (r : ReportUnit) : ReportUnit :=
  { r.emptyLatches with flags := r.flags &&& Flag.powerOn.bit }

/-- The link port at power-on (R153, R155, R156, R160). -/
def LinkPort.fresh (straps : Straps) : LinkPort :=
  { straps := straps, receiver := .hunt, service := none, reply := none, driver := false, interval := 0, deadline := none, tx := [] }

/-- The link port after RESTART (R155, R160, R162). -/
def LinkPort.restarted (now : Nat) (l : LinkPort) : LinkPort :=
  { l with receiver := .hunt, service := none, reply := none, driver := false, deadline := watchdogDeadline l.interval now }

/-- RESTART takes effect: every block takes its RESTART values (R162). -/
def State.restarted (s : State) : State :=
  let c := s.store.card
  { pending := s.pending, powered := s.powered, now := s.now,
    runout := TravelUnit.fresh c s.runout.active,
    scan := ScanAssembler.fresh c s.scan.headTx,
    thermal := freshThermal c.thermal s.now,
    engine := SectionEngine.fresh,
    tracker := Tracker.fresh c.strands,
    verdict := { failsafe := s.verdict.failsafe, last := Vector.replicate 4 none },
    report := s.report.restarted,
    store := s.store.dropPending,
    link := s.link.restarted s.now }

/-- The CRC-32 of a bank's content (R143, R145). -/
def BankContent.crc : BankContent → Word32
  | .card c => digestOf c
  | .bytes bs => crc32 bs

/-- The card that a load takes from bytes that are no card's canonical form: the free value of log entry 8, which holds a value of
its range in every field (R134). -/
def foreignCardOf (bs : List Byte) : Card := if (Config.foreignCard bs).inRange then Config.foreignCard bs else Card.empty

/-- The card that a bank's content is (R144, R145, R150): the card held, or the one whose canonical form the bytes are. -/
def BankContent.asCard : BankContent → Card
  | .card c => c
  | .bytes bs => (cardOfContent bs).getD (foreignCardOf bs)

/-- The bank's content gives its digest (R145 case 5, R150). -/
def Bank.intact (b : Bank) : Bool := b.content.crc == b.digest

/-- A bank at power-on: HELD becomes OPEN, FIXED stays (R144). -/
def Bank.powerOn (b : Bank) : Bank := if b.lock = .held then { b with lock := .unlocked } else b

/-- The working card and its digest that the boot bank gives (R150). -/
def bootCard (banks : Vector Bank 8) : Option (Fin 8) → Card × Word32
  | none => (Card.empty, digestOf Card.empty)
  | some i => if banks[i].valid && banks[i].intact then (banks[i].content.asCard, banks[i].digest) else (Card.empty, digestOf Card.empty)

/-- The boot bank is valid and its content fails its check (R150). -/
def bootFails (banks : Vector Bank 8) : Option (Fin 8) → Bool
  | none => false
  | some i => banks[i].valid && !banks[i].intact

/-- The card store at power-on: the banks and the boot-bank setting are kept without supply (R134, R140, R144, R150, R151). -/
def CardStore.powerOn (x : CardStore) : CardStore :=
  let banks := Vector.ofFn fun i => x.banks[i].powerOn
  let boot := bootCard banks x.boot
  { card := boot.1, digest := boot.2, pendingLimits := Vector.replicate 32 none, banks := banks, boot := x.boot, engine := .idle,
    lastOutcome := .none }

/-- The machine at power-on, with the levels of the straps and of PULLER SELECT (R150 and the rule of each block's state). -/
def State.poweredOn (straps : Straps) (selectHigh : Bool) (s : State) : State :=
  let store := s.store.powerOn
  { pending := s.pending, powered := true, now := 0,
    runout := TravelUnit.fresh store.card (if selectHigh then .b else .a),
    scan := ScanAssembler.fresh store.card [],
    thermal := freshThermal store.card.thermal 0,
    engine := SectionEngine.fresh,
    tracker := Tracker.fresh store.card.strands,
    verdict := { failsafe := .normal, last := Vector.replicate 4 none },
    report := ReportUnit.fresh.raiseIf (bootFails s.store.banks s.store.boot) .bankError,
    store := store,
    link := LinkPort.fresh straps }

/-- One bank of the store replaced. -/
def CardStore.putBank (x : CardStore) (i : Fin 8) (b : Bank) : CardStore := { x with banks := setAt x.banks i b }

/-- The engine is storing bank `i` (R145, R149). -/
def CardStore.isStoring (x : CardStore) (i : Fin 8) : Bool :=
  match x.engine with
  | .idle => false
  | .storing j => j.bank == i
  | .suspended j => j.bank == i

/-- A store in flight is suspended (R148). -/
def CardStore.suspend (x : CardStore) : CardStore :=
  match x.engine with
  | .storing j => { x with engine := .suspended j }
  | _ => x

/-- A suspended store resumes (R148). -/
def CardStore.resume (x : CardStore) : CardStore :=
  match x.engine with
  | .suspended j => { x with engine := .storing j }
  | _ => x

/-- Memory work done with a store in flight suspended for it (R148; log entry 14). -/
def CardStore.suspending (work : CardStore → CardStore) (x : CardStore) : CardStore := (work x.suspend).resume

/-- A bank's record at the acceptance of a store of the card into it (R146). -/
def Bank.accept (c : Card) (digest : Word32) (b : Bank) : Bank :=
  { b with valid := false, die := c.die, revision := c.revision, digest := digest, storeCount := bump16 b.storeCount }

/-- A store into bank `i` begins (R146). -/
def CardStore.startStore (i : Fin 8) (x : CardStore) : CardStore :=
  { x.putBank i (x.banks[i].accept x.card x.digest) with engine := .storing { bank := i, copy := x.card, digest := x.digest } }

/-- The answer of BANK_STORE and what it does to the card store (R146); the flag is set where it is PROTECTED. -/
def CardStore.storeBank (bank : Byte) (x : CardStore) : CardStore × ReplyBody :=
  match indexOf 8 bank with
  | none => (x, refused .badValue)
  | some i =>
      if x.banks[i].lock ≠ .unlocked then (x, refused .isProtected)
      else if x.engine ≠ .idle then (x, refused .busy)
      else (x.startStore i, okReply [])

/-- The rank of a lock state: OPEN below HELD below FIXED (R149). -/
def lockRank : Lock → Nat
  | .unlocked => 0
  | .held => 1
  | .fixed => 2

/-- The lock of bank `i` set; a change to FIXED is written to non-volatile memory, suspending a store (R148, R149). -/
def CardStore.setLock (i : Fin 8) (l : Lock) (x : CardStore) : CardStore :=
  let write : CardStore → CardStore := fun y => y.putBank i { y.banks[i] with lock := l }
  if l = .fixed ∧ x.banks[i].lock ≠ .fixed then x.suspending write else write x

/-- The answer of BANK_LOCK and what it does to the card store (R149); the flag is set where it is PROTECTED. -/
def CardStore.lockBank (bank mode : Byte) (x : CardStore) : CardStore × ReplyBody :=
  match indexOf 8 bank, lockOf mode with
  | some i, some l =>
      if x.isStoring i then (x, refused .busy)
      else if lockRank l < lockRank x.banks[i].lock then (x, refused .isProtected)
      else (x.setLock i l, okReply [lockCode l])
  | _, _ => (x, refused .badValue)

/-- The answer of SET_BOOT and what it does to the card store (R150). -/
def CardStore.chooseBoot (bank : Byte) (x : CardStore) : CardStore × ReplyBody :=
  match bootOf bank with
  | none => (x, refused .badValue)
  | some b => (x.suspending fun y => { y with boot := b }, okReply [])

/-- What the non-volatile write of the request in service leaves, had it been reached when supply failed (R151; log entry 13). -/
def CardStore.land (service : Option Service) (x : CardStore) : CardStore :=
  match service with
  | some { request := some (.bankStore b), .. } => (x.storeBank b).1
  | some { request := some (.bankLock b m), .. } => if lockOf m = some .fixed then (x.lockBank b m).1 else x
  | some { request := some (.setBoot b), .. } => (x.chooseBoot b).1
  | _ => x

/-- The machine after its supply has failed: a store in flight is lost, a non-volatile write of a request not yet answered has
landed or not (R151), and the link driver is off. -/
def State.failed (landed : Bool) (s : State) : State :=
  let store := if landed && s.link.reply.isNone then s.store.land s.link.service else s.store
  ((s.withStore { store with engine := .idle }).withLink { s.link with driver := false }).withPowered false

end Sys2Proof.Machine
end

