-- ==== Sys2Proof/Machine/BankCommands.lean ====
section
/-! DEFINITION. The card banks' commands: BANK_LOAD (R145), BANK_STORE (R146), BANK_STORE_END (R147), BANK_LOCK (R149),
BANK_INFO (R152), SET_BOOT (R150). -/

namespace Sys2Proof.Machine

/-- The card store after a load of a bank (R145). -/
def CardStore.load (b : Bank) (x : CardStore) : CardStore :=
  (x.suspending fun y => { y with card := b.content.asCard, digest := b.digest }).dropPending

/-- A load carried out: the card, and what each block takes from it (R26, R48, R63, R92, R145). -/
def State.loadBank (b : Bank) (s : State) : State :=
  let old := s.store.card
  let store := s.store.load b
  let new := store.card
  let heads := Vector.ofFn fun i => s.scan.heads[i].follow old.heads[i].enabled new.heads[i].enabled
  ((((((s.withStore store).withReport s.report.emptyLatches).withEngine s.engine.forget).withScan
      { s.scan with heads := heads }).withRunout (s.runout.takePitch true old.line.scanPitch new.line.scanPitch)).takeThermal
      new.thermal).withTracker (s.tracker.follow old.strands new.strands)

/-- The fields of the BANK_LOAD reply: the new digest, the die number and the revision of the card loaded (R145). -/
def loadFields (x : CardStore) : List Byte := bytes32 x.digest ++ le32 x.card.die ++ le16 x.card.revision

/-- BANK_LOAD served (R145). -/
def State.bankLoad (bank : Byte) (s : State) : State × ReplyBody :=
  match indexOf 8 bank with
  | none => (s, refused .badValue)
  | some i =>
      if !s.pressIdle then (s, refused .running)
      else if s.store.isStoring i then (s, refused .busy)
      else if !s.store.banks[i].valid then (s, refused .bankEmpty)
      else if !s.store.banks[i].intact then
        ((s.withStore (s.store.suspending id)).withReport (s.report.raise .bankError), refused .bankCrc)
      else
        let loaded := s.loadBank s.store.banks[i]
        (loaded, okReply (loadFields loaded.store))

/-- BANK_LOAD (R145). -/
def execBankLoad (bank : Byte) (s : State) : Answer := s.request (.bankLoad bank) (State.bankLoad bank)

/-- What the card store answers, with PROTECTED_ACCESS set where it refuses with PROTECTED (R146, R149, R172). -/
def State.storing (p : CardStore × ReplyBody) (s : State) : State × ReplyBody :=
  ((s.withStore p.1).withReport (s.report.raiseIf (p.2.reason == some .isProtected) .protectedAccess), p.2)

/-- BANK_STORE (R146). -/
def execBankStore (bank : Byte) (s : State) : Answer := s.request (.bankStore bank) fun s => s.storing (s.store.storeBank bank)

/-- BANK_LOCK (R149). -/
def execBankLock (bank mode : Byte) (s : State) : Answer := s.request (.bankLock bank mode) fun s => s.storing (s.store.lockBank bank mode)

/-- BANK_INFO (R152). -/
def execBankInfo (s : State) : Answer := s.request .bankInfo (answering fun s => okReply (bankInfoFields s.store))

/-- SET_BOOT served (R150). -/
def State.setBoot (bank : Byte) (s : State) : State × ReplyBody :=
  let p := s.store.chooseBoot bank
  (s.withStore p.1, p.2)

/-- SET_BOOT (R150). -/
def execSetBoot (bank : Byte) (s : State) : Answer := s.request (.setBoot bank) (State.setBoot bank)

/-- What the bank's memory holds when a store ends (R147; log entry 15). -/
def readContent (copy : Card) : StoreRead → BankContent
  | .copy => .card copy
  | .other bs => .bytes bs
  | .incomplete bs => .bytes bs

/-- The memory completed its writes (R147). -/
def readComplete : StoreRead → Bool
  | .copy => true
  | .other _ => true
  | .incomplete _ => false

/-- The store ends in STORE_DONE: the writes were completed and the content read back gives the copy's digest (R147). -/
def storeSucceeds (j : StoreJob) (found : StoreRead) : Bool := readComplete found && (readContent j.copy found).crc == j.digest

/-- The card store after a store has ended (R147). -/
def CardStore.endStore (j : StoreJob) (found : StoreRead) (x : CardStore) : CardStore :=
  let done := storeSucceeds j found
  { x.putBank j.bank { x.banks[j.bank] with content := readContent j.copy found, valid := done } with
    engine := .idle, lastOutcome := if done then .done j.bank else .fail j.bank }

/-- The end of the store in flight (R147); a suspended store does no work (R148). -/
def State.endStore (found : StoreRead) (s : State) : State :=
  match s.store.engine with
  | .storing j => (s.withStore (s.store.endStore j found)).withReport (s.report.raiseIf (!storeSucceeds j found) .bankError)
  | _ => s

/-- BANK_STORE_END (R147). -/
def execBankStoreEnd (found : StoreRead) (s : State) : Answer := s.event (State.endStore found)

end Sys2Proof.Machine
end

