-- ==== Sys2Proof/Machine/CardCommands.lean ====
section
/-! DEFINITION. The editing requests and READ_CARD: SET_HEAD (R3), SET_CURVE (R4), SET_FEATURE (R70, R71), CLEAR_FEATURE (R72),
SET_LIMITS (R73, R140), SET_THERMAL (R62, R63), SET_LINE (R137, R138), SET_IDENTITY (R135), READ_CARD (R141). -/

namespace Sys2Proof.Machine

/-- The reply to an editing request carried out: the digest, then what is echoed where a field was brought into range (R139,
R158; log entry 10). -/
def editReply (clamped : Bool) (echo : List Byte) (s : State) : State × ReplyBody :=
  (s, if clamped then clampedReply (bytes32 s.store.digest ++ echo) else okReply (bytes32 s.store.digest))

/-- A head record replaced, with the head's entry in the head table (R3). -/
def State.putHead (i : Fin 8) (h : HeadRecord) (s : State) : State :=
  let c := s.store.card
  let entry := s.scan.heads[i].follow c.heads[i].enabled h.enabled
  (s.edit { c with heads := setAt c.heads i h }).withScan { s.scan with heads := setAt s.scan.heads i entry }

/-- SET_HEAD served (R3). -/
def State.setHead (head : Byte) (r : RawHead) (s : State) : State × ReplyBody :=
  match indexOf 8 head with
  | none => (s, refused .badValue)
  | some i =>
      if !s.pressIdle then (s, refused .running)
      else
        match headRecordOf r with
        | none => (s, refused .badValue)
        | some h => if placeTaken s.store.card i h then (s, refused .badValue) else editReply false [] (s.putHead i h)

/-- SET_HEAD (R3). -/
def execSetHead (head : Byte) (r : RawHead) (s : State) : Answer := s.request (.setHead head r) (State.setHead head r)

/-- SET_CURVE served (R4). -/
def State.setCurve (head : Byte) (points : List Word32) (s : State) : State × ReplyBody :=
  match indexOf 8 head with
  | none => (s, refused .badValue)
  | some i =>
      if !s.pressIdle then (s, refused .running)
      else
        match curveOf points with
        | none => (s, refused .badValue)
        | some v => editReply false [] (s.edit { s.store.card with curves := setAt s.store.card.curves i v })

/-- SET_CURVE (R4). -/
def execSetCurve (head : Byte) (points : List Word32) (s : State) : Answer :=
  s.request (.setCurve head points) (State.setCurve head points)

/-- A feature record replaced or made absent: its persistence is cleared, and an evaluation in hand goes on for the record only
(R71, R72, R80, R90). -/
def State.putFeature (i : Fin 32) (f : Option Feature) (s : State) : State :=
  (s.edit { s.store.card with features := setAt s.store.card.features i f }).withEngine (s.engine.recordOnly.clearFeature i)

/-- SET_FEATURE served (R70, R71). -/
def State.setFeature (feature : Byte) (r : RawFeature) (s : State) : State × ReplyBody :=
  match indexOf 32 feature with
  | none => (s, refused .badValue)
  | some i =>
      if !s.pressIdle then (s, refused .running)
      else
        match featureOf r with
        | none => (s, refused .badValue)
        | some (f, clamped) =>
            if f.trended && decide (8 ≤ trendedOthers s.store.card i) then (s, refused .badValue)
            else editReply clamped (featureFields f) (s.putFeature i (some f))

/-- SET_FEATURE (R70). -/
def execSetFeature (feature : Byte) (r : RawFeature) (s : State) : Answer :=
  s.request (.setFeature feature r) (State.setFeature feature r)

/-- CLEAR_FEATURE served (R72). -/
def State.clearFeature (feature : Byte) (s : State) : State × ReplyBody :=
  match indexOf 32 feature with
  | none => (s, refused .badValue)
  | some i => if !s.pressIdle then (s, refused .running) else editReply false [] (s.putFeature i none)

/-- CLEAR_FEATURE (R72). -/
def execClearFeature (feature : Byte) (s : State) : Answer := s.request (.clearFeature feature) (State.clearFeature feature)

/-- The limits of a feature replaced at once (R73 case 3). -/
def State.putLimits (i : Fin 32) (f : Feature) (l : Limits) (s : State) : State :=
  s.edit { s.store.card with features := setAt s.store.card.features i (some { f with limits := l }) }

/-- The limits of a feature set aside in the pending-limits list (R73 case 4, R140). -/
def CardStore.defer (i : Fin 32) (l : Limits) (x : CardStore) : CardStore := { x with pendingLimits := setAt x.pendingLimits i (some l) }

/-- SET_LIMITS served (R73). -/
def State.setLimits (feature : Byte) (r : RawLimits) (s : State) : State × ReplyBody :=
  match indexOf 32 feature with
  | none => (s, refused .badValue)
  | some i =>
      match s.store.card.features[i] with
      | none => (s, refused .badValue)
      | some f =>
          match limitsOf r with
          | none => (s, refused .badValue)
          | some (l, clamped) =>
              if s.pressIdle then editReply clamped (limitsFields l) (s.putLimits i f l)
              else (s.withStore (s.store.defer i l), deferredReply (bytes32 s.store.digest ++ limitsFields l))

/-- SET_LIMITS (R73). -/
def execSetLimits (feature : Byte) (r : RawLimits) (s : State) : Answer := s.request (.setLimits feature r) (State.setLimits feature r)

/-- The thermal section replaced, and taken by the thermal unit (R62, R63). -/
def State.putThermal (t : ThermalSection) (s : State) : State := (s.edit { s.store.card with thermal := t }).takeThermal t

/-- SET_THERMAL served (R62). -/
def State.setThermal (r : RawThermal) (s : State) : State × ReplyBody :=
  if !s.pressIdle then (s, refused .running)
  else
    match thermalOf r with
    | none => (s, refused .badValue)
    | some (t, clamped) => editReply clamped (thermalSectionFields t) (s.putThermal t)

/-- SET_THERMAL (R62). -/
def execSetThermal (r : RawThermal) (s : State) : Answer := s.request (.setThermal r) (State.setThermal r)

/-- The line section replaced, and a changed scan pitch taken by the generator; during a run the same section changes nothing
(R26, R137 to R139). -/
def State.putLine (l : LineSection) (s : State) : State :=
  if l = s.store.card.line ∧ s.pressIdle = false then s
  else
    (s.edit { s.store.card with line := l }).withRunout
      (s.runout.takePitch s.pressIdle s.store.card.line.scanPitch l.scanPitch)

/-- Two line sections differ in the scan pitch at most (R138). -/
def pitchApart (a b : LineSection) : Bool := ({ a with scanPitch := b.scanPitch } : LineSection) == b

/-- SET_LINE served (R137, R138). -/
def State.setLine (r : RawLine) (s : State) : State × ReplyBody :=
  match lineOf r with
  | none => (s, refused .badValue)
  | some (l, clamped) =>
      if s.pressIdle || pitchApart l s.store.card.line then editReply clamped (lineSectionFields l) (s.putLine l)
      else (s, refused .running)

/-- SET_LINE (R137). -/
def execSetLine (r : RawLine) (s : State) : Answer := s.request (.setLine r) (State.setLine r)

/-- The identity and the strand count replaced, and followed by the strands (R92, R135). -/
def State.putIdentity (die : Word32) (revision : Word16) (alloy strands : Byte) (s : State) : State :=
  let c := s.store.card
  (s.edit { c with die := die.toNat, revision := revision.toNat, alloy := alloy.toNat, strands := strands.toNat }).withTracker
    (s.tracker.follow c.strands strands.toNat)

/-- SET_IDENTITY served (R135). -/
def State.setIdentity (die : Word32) (revision : Word16) (alloy strands : Byte) (s : State) : State × ReplyBody :=
  if !s.pressIdle then (s, refused .running)
  else if strands = 0 ∨ 4 < strands.toNat then (s, refused .badValue)
  else editReply false [] (s.putIdentity die revision alloy strands)

/-- SET_IDENTITY (R135). -/
def execSetIdentity (die : Word32) (revision : Word16) (alloy strands : Byte) (s : State) : Answer :=
  s.request (.setIdentity die revision alloy strands) (State.setIdentity die revision alloy strands)

/-- READ_CARD served (R141). -/
def State.readCard (part index : Byte) (s : State) : ReplyBody :=
  match cardFields s.store part index with
  | none => refused .badValue
  | some bs => okReply (bytes32 s.store.digest ++ bs)

/-- READ_CARD (R141). -/
def execReadCard (part index : Byte) (s : State) : Answer := s.request (.readCard part index) (answering (State.readCard part index))

end Sys2Proof.Machine
end

