-- ==== Sys2Proof/Machine/EngineCommands.lean ====
section
/-! DEFINITION. The section engine's commands: STRAND_EVALUATION (R74 to R90) and SLOT_EVALUATION_END (R45). -/

namespace Sys2Proof.Machine

/-- The engine after one strand of the slot in hand has been evaluated, as a track slot or for the record only (R86, R88 to R90). -/
def SectionEngine.evaluate (v : Evaluation) (k : Slot) (i : Fin 4) (rest : List (Fin 4)) (e : SectionEngine) : SectionEngine :=
  let left : Evaluation := { v with todo := rest }
  let noted : SectionEngine := { e with evaluation := some left, last := setAt e.last i (some (lastResultsOf v.card k i)) }
  if v.track then
    { noted with
      persistence := setAt e.persistence i (persistenceAfter v.card k i e.persistence[i]),
      sent := e.sent ++ eventsOf v.card k i e.persistence[i] }
  else noted

/-- The next strand of the evaluation in hand is evaluated, where it is strand `i` (R86; log entry 21). -/
def State.evaluateStrand (i : Fin 4) (s : State) : State :=
  match s.engine.evaluation with
  | none => s
  | some v =>
      match s.scan.slots[v.slot], v.todo with
      | some k, j :: rest => if j = i then s.withEngine (s.engine.evaluate v k i rest) else s
      | _, _ => s

/-- STRAND_EVALUATION (R86). -/
def execStrandEvaluation (strand : Fin 4) (s : State) : Answer := s.event (State.evaluateStrand strand)

/-- The evaluation in hand ends, once no strand is left to evaluate: the slot becomes FREE, leaves the stale set, and hand-over
is tried again (R45, R75, R90). -/
def State.endEvaluation (s : State) : State :=
  match s.engine.evaluation with
  | none => s
  | some v =>
      if v.todo = [] then
        ((s.withScan (s.scan.putSlot v.slot none)).withEngine
          { s.engine with evaluation := none, stale := setAt s.engine.stale v.slot false }).tryHandOver
      else s

/-- SLOT_EVALUATION_END (R45). -/
def execSlotEvaluationEnd (s : State) : Answer := s.event State.endEvaluation

end Sys2Proof.Machine
end

