-- ==== Sys2Proof/Machine/HeadCommands.lean ====
section
/-! DEFINITION. The scan assembler's commands: LINE_FRAME (R34, R40, R41, R49, R52), LINE_WAIT_EXPIRY (R42),
CHECK_LIMIT_EXPIRY (R53), HEAD_CHECK (R51), HEAD_INFO (R54). -/

namespace Sys2Proof.Machine

/-- The entry of a head whose line is accepted, with the head's minimum valid points (R49). -/
def HeadEntry.accept (minPoints valid peak : Nat) (e : HeadEntry) : HeadEntry :=
  let sparse := if minPoints ≤ valid then 0 else bump 255 e.sparse 1
  { state := if 8 ≤ sparse then .blinded else .ok, miss := 0, sparse := sparse, lastLine := some { valid := valid, peak := peak },
    check := e.check }

/-- The slot that is OPEN with a trigger number (R40 case 2). -/
def ScanAssembler.openWith (a : ScanAssembler) (number : Nat) : Option (Fin 4) :=
  slotsInOrder.find? (a.holds fun k => k.phase == .waiting && k.number == number)

/-- A line accepted into OPEN slot `i` (R40 case 5, R41, R49). -/
def State.acceptLine (i : Fin 4) (k : Slot) (l : Line) (s : State) : State :=
  let before := s.scan.heads[l.head]
  let after := before.accept s.store.card.heads[l.head].minPoints (validCount l.codes) l.peak
  let held : Slot := { k with lines := k.lines ++ [l] }
  let blinded := after.state == .blinded && before.state != .blinded
  let stored := (s.withScan { s.scan.putSlot i (some held) with heads := setAt s.scan.heads l.head after }).withReport
    (s.report.raiseIf blinded .headFault)
  if held.complete then stored.closeSlot i held else stored

/-- A trigger line judged (R40). -/
def State.triggerLine (number : Nat) (l : Line) (s : State) : State :=
  if !s.store.card.heads[l.head].enabled then s.withReport s.report.countLateLine
  else
    match s.scan.openWith number with
    | none => s.withReport s.report.countLateLine
    | some i =>
        match s.scan.slots[i] with
        | none => s.withReport s.report.countLateLine
        | some k =>
            if !k.expected.contains l.head then s.withReport s.report.countLateLine
            else if k.received l.head then s.withReport s.report.countDuplicate
            else s.acceptLine i k l

/-- The check result of a line on the head's record (R52). -/
def checkOf (h : HeadRecord) (l : Line) : CheckResult :=
  if l.peak < h.dark then .dark
  else if h.bright < l.peak then .bright
  else if validCount l.codes < h.minPoints then .sparse
  else .pass

/-- The head table at the completion of a check: PENDING becomes NO_LINE (R53). -/
def HeadEntry.unanswered (e : HeadEntry) : HeadEntry := if e.check = .pending then { e with check := .noLine } else e

/-- The check in flight completes (R53). -/
def State.completeCheck (s : State) : State :=
  (s.withScan { s.scan with heads := Vector.ofFn (fun i => s.scan.heads[i].unanswered), check := none }).withReport
    (s.report.raise .checkDone)

/-- No selected head's result is PENDING (R53). -/
def ScanAssembler.allAnswered (a : ScanAssembler) : Bool := headsInOrder.all fun i => a.heads[i].check != .pending

/-- A check line judged (R52, R53). -/
def State.checkLine (l : Line) (s : State) : State :=
  match s.scan.check with
  | none => s.withReport s.report.countLateLine
  | some c =>
      if !c.mask.getLsbD l.head.val then s.withReport s.report.countLateLine
      else if s.scan.heads[l.head].check ≠ .pending then s.withReport s.report.countDuplicate
      else
        let entry : HeadEntry := { s.scan.heads[l.head] with check := checkOf s.store.card.heads[l.head] l }
        let judged := s.withScan { s.scan with heads := setAt s.scan.heads l.head entry }
        if judged.scan.allAnswered then judged.completeCheck else judged

/-- A line of a head 0 to 7, or of a number that is no head's: such a line finds no enabled, expected or named head, so it is
late (R40 case 1, R52; log entry 25). -/
def State.takeLine (l : HeadLine) (s : State) : State :=
  if h : l.head < 8 then
    let line : Line := { head := ⟨l.head, h⟩, peak := l.peak, codes := l.codes }
    if l.trigger = 65535 then s.checkLine line else s.triggerLine l.trigger line
  else s.withReport s.report.countLateLine

/-- A frame from the head link (R34). -/
def State.headFrame (bs : List Byte) (s : State) : State :=
  match lineOfFrame bs with
  | none => s.withReport s.report.countLineCrc
  | some l => s.takeLine l

/-- LINE_FRAME (R34). -/
def execLineFrame (bs : List Byte) (s : State) : Answer := s.event (State.headFrame bs)

/-- The line-wait deadline of a slot comes (R42); a slot that is not OPEN is left (R41). -/
def State.expireSlot (i : Fin 4) (s : State) : State :=
  match s.scan.slots[i] with
  | none => s
  | some k => if k.phase = .waiting then (s.reach k.deadline).closeMissing i k else s

/-- LINE_WAIT_EXPIRY (R42). -/
def execLineWaitExpiry (slot : Fin 4) (s : State) : Answer := s.event (State.expireSlot slot)

/-- The 200 ms limit of a check in flight runs out (R53). -/
def State.expireCheck (s : State) : State :=
  match s.scan.check with
  | none => s
  | some c => (s.reach c.deadline).completeCheck

/-- CHECK_LIMIT_EXPIRY (R53). -/
def execCheckLimitExpiry (s : State) : Answer := s.event State.expireCheck

/-- The heads that a mask names, in increasing number. -/
def namedHeads (mask : Byte) : List (Fin 8) := headsInOrder.filter fun i => mask.getLsbD i.val

/-- The scan assembler at the acceptance of a head check (R51). The CHECK frames go out in increasing head number (DESIGN CHOICE,
log entry 19: R33 and R51 give no order). -/
def ScanAssembler.beginCheck (mask exposure : Byte) (now : Nat) (a : ScanAssembler) : ScanAssembler :=
  { a with
    heads := Vector.ofFn fun i => { a.heads[i] with check := if mask.getLsbD i.val then .pending else .none },
    check := some { mask := mask, deadline := now + 200 },
    headTx := a.headTx ++ (namedHeads mask).map fun i => checkFrame i exposure }

/-- HEAD_CHECK served (R51). -/
def State.headCheck (mask exposure : Byte) (s : State) : State × ReplyBody :=
  if mask = 0 ∨ 3 < exposure.toNat then (s, refused .badValue)
  else if !s.pressIdle then (s, refused .state)
  else if s.scan.check.isSome then (s, refused .busy)
  else ((s.withScan (s.scan.beginCheck mask exposure s.now)).withReport (s.report.lower .checkDone), okReply [])

/-- HEAD_CHECK (R51). -/
def execHeadCheck (mask exposure : Byte) (s : State) : Answer := s.request (.headCheck mask exposure) (State.headCheck mask exposure)

/-- HEAD_INFO served (R54). -/
def State.headInfo (s : State) : State × ReplyBody :=
  (s.withReport (s.report.lower .checkDone), okReply (headInfoFields s))

/-- HEAD_INFO (R54). -/
def execHeadInfo (s : State) : Answer := s.request .headInfo State.headInfo

end Sys2Proof.Machine
end

