-- ==== Sys2Proof/Machine/LinkCommands.lean ====
section
/-! DEFINITION. The link port's commands: LINK_FRAME (R153, R155 to R157), FRAME_GAP_TIMEOUT (R155), REPLY_SENT (R156, R162),
WATCHDOG_EXPIRY (R161), STATUS and IDENT (R164), SET_WATCHDOG (R160), FORCE_FAILSAFE and CLEAR_FAILSAFE (R131), RESTART (R162). -/

namespace Sys2Proof.Machine

/-- The link port with an accepted request in service, examined: answered by the port itself, or passed on (R156, R157, R161). -/
def LinkPort.accept (now : Nat) (kind : Byte) (payload : List Byte) (l : LinkPort) : LinkPort :=
  let started : LinkPort := { l with deadline := watchdogDeadline l.interval now }
  match examine kind payload with
  | .answer b => { started with service := some { kind := kind, request := none }, reply := some { kind := replyKind kind, body := b } }
  | .pass c => { started with service := some { kind := kind, request := some c }, reply := none }

/-- A whole own frame is taken: accepted, or an overrun (R156). -/
def State.takeFrame (kind : Byte) (payload : List Byte) (s : State) : State :=
  if s.link.service.isSome then s.withReport s.report.countOverrun else s.withLink (s.link.accept s.now kind payload)

/-- A judgement of the receiver acted on (R155). -/
def State.judged (j : Judgement) (s : State) : State :=
  match j with
  | .nothing => s
  | .badLength => s.withReport s.report.countLinkCrc
  | .corrupt => s.withReport s.report.countLinkCrc
  | .whole kind payload => s.takeFrame kind payload

/-- The receiver set. -/
def State.withReceiver (s : State) (r : Receiver) : State := s.withLink { s.link with receiver := r }

/-- One byte on the link: received while the part's driver is off, and not received while it is on (R153, R155). -/
def State.receive (s : State) (b : Byte) : State :=
  if s.link.driver then s
  else
    let p := s.link.receiver.push (addressOf s.link.straps) b
    (s.withReceiver p.1).judged p.2

/-- LINK_FRAME (R155): bytes received on the link with no gap above 2 ms between them. -/
def execLinkFrame (bs : List Byte) (s : State) : Answer := s.event fun s => bs.foldl State.receive s

/-- A gap of more than 2 ms (R155). -/
def State.gap (s : State) : State :=
  let counted := if s.link.receiver.abandonsOwn (addressOf s.link.straps) then s.withReport s.report.countLinkCrc else s
  counted.withReceiver .hunt

/-- FRAME_GAP_TIMEOUT (R155). -/
def execFrameGapTimeout (s : State) : Answer := s.event State.gap

/-- The reply is that of a RESTART carried out (R162). -/
def Reply.restarts (r : Reply) : Bool := r.kind == replyKind (kindByteOf .restart) && r.body.status == .ok

/-- The sending of a reply that stands formed has begun: the driver is on (R153; log entry 7). -/
def LinkPort.drive (l : LinkPort) : LinkPort := { l with driver := l.driver || l.reply.isSome }

/-- A millisecond of the clock while the part has supply (log entry 2), by the end of which a reply that stood formed is being
sent (log entry 7). -/
def State.passMillisecond (s : State) : State := if s.powered then (s.withNow (s.now + 1)).withLink s.link.drive else s

/-- The last character of the reply is sent, the driver goes off and the request leaves service (R153, R156). -/
def LinkPort.send (r : Reply) (l : LinkPort) : LinkPort :=
  { l with service := none, reply := none, driver := false, tx := l.tx ++ [replyFrame l.straps r] }

/-- A reply sent, with the RESTART that it may carry (R156, R162). -/
def State.sendReply (s : State) : State :=
  match s.link.reply with
  | none => s
  | some r =>
      let sent := s.withLink (s.link.send r)
      if r.restarts then sent.restarted else sent

/-- REPLY_SENT (R156). -/
def execReplySent (s : State) : Answer := s.event State.sendReply

/-- The part enters FAILSAFE or returns to NORMAL (R130). -/
def State.withFailsafe (s : State) (f : Failsafe) : State := s.withVerdict { s.verdict with failsafe := f }

/-- The watchdog timer reaches its deadline; a stopped timer has none (R161). -/
def State.expireWatchdog (s : State) : State :=
  match s.link.deadline with
  | none => s
  | some d => ((s.reach d).withLink { s.link with deadline := none }).withFailsafe .failsafe

/-- WATCHDOG_EXPIRY (R161). -/
def execWatchdogExpiry (s : State) : Answer := s.event State.expireWatchdog

/-- STATUS (R164). -/
def execStatus (s : State) : Answer := s.request .status (answering fun s => okReply (statusFields s))

/-- IDENT (R164). -/
def execIdent (s : State) : Answer := s.request .ident (answering fun s => okReply (identFields s.link.straps))

/-- SET_WATCHDOG served (R160). -/
def State.setWatchdog (interval : Word16) (s : State) : State × ReplyBody :=
  let n := intervalOf interval
  let fields := le16 n
  (s.withLink { s.link with interval := n, deadline := watchdogDeadline n s.now },
    if n = interval.toNat then okReply fields else clampedReply fields)

/-- SET_WATCHDOG (R160). -/
def execSetWatchdog (interval : Word16) (s : State) : Answer := s.request (.setWatchdog interval) (State.setWatchdog interval)

/-- FORCE_FAILSAFE (R131). -/
def execForceFailsafe (s : State) : Answer :=
  s.request .forceFailsafe fun s => (s.withFailsafe .failsafe, okReply [failsafeCode .failsafe])

/-- CLEAR_FAILSAFE (R131). -/
def execClearFailsafe (s : State) : Answer :=
  s.request .clearFailsafe fun s => (s.withFailsafe .normal, okReply [failsafeCode .normal])

/-- RESTART (R162): answered OK; its effect follows the reply's last character (REPLY_SENT). -/
def execRestart (s : State) : Answer := s.request .restart (answering fun _ => okReply [])

end Sys2Proof.Machine
end

