-- ==== Sys2Proof/Machine/PressCommands.lean ====
section
/-! DEFINITION. The press events and the requests that end strands: RUN_START (R95), BILLET_JOIN (R96), STOP and RESUME (R97),
RUN_END (R98), RUN_CLOSE (R99), WITHDRAW (R100). -/

namespace Sys2Proof.Machine

/-- The distance slots in flight join the stale set (R75). -/
def SectionEngine.markStale (a : ScanAssembler) (e : SectionEngine) : SectionEngine :=
  { e with stale := Vector.ofFn fun i => e.stale[i] || a.holds (fun k => !k.manual) i }

/-- The strand records at an accepted RUN_START (R92). -/
def runStrands (count : Nat) : Vector Strand 4 := Vector.ofFn fun i => Strand.fresh (if i.val < count then .nose else .absent) 1

/-- The travel unit at an accepted RUN_START (R20, R23, R32). -/
def TravelUnit.runStart (c : Card) (r : TravelUnit) : TravelUnit :=
  { r with deficitA := 0, deficitB := 0, travel := 0, pitch := c.line.scanPitch, nextPitch := none, remainder := 0, cuts := [] }

/-- An accepted RUN_START (R95). A lost-cut report that still waits is taken before it, so that its marks are among those that
RUN_START clears (R30; DESIGN CHOICE, log entry 6). -/
def State.beginRun (s : State) : State :=
  let c := s.store.card
  ((((s.withRunout (s.runout.runStart c)).withScan { s.scan with skips := none }).withEngine
      { (s.engine.markStale s.scan).forget with sent := [] }).withTracker
      { press := .running, strands := runStrands c.strands, reports := 0, reportsDue := 0 }).withReport s.report.emptyLatches

/-- The NOT_READY refusal (R95, R158). -/
def notReady (check : Nat) : ReplyBody := { status := .refused, reason := some .notReady, fields := [byte check] }

/-- The reply to an accepted press event, from the state after it (R94). -/
def pressReply (code : Byte) (p : Int) (after : State) : State × ReplyBody := (after, okReply (pressFields code p after.tracker.press))

/-- RUN_START served (R95). -/
def State.runStart (s : State) : State × ReplyBody :=
  if !s.pressIdle then (s, refused .state)
  else if s.scan.check.isSome then (s, refused .busy)
  else if readiness s.store.card ≠ 0 then (s, notReady (readiness s.store.card))
  else pressReply 0 0 s.beginRun

/-- RUN_START (R95). -/
def execRunStart (s : State) : Answer := s.request .runStart State.runStart

/-- BILLET_JOIN and STOP are admitted: the press is RUNNING or STOPPED (R96 to R98). -/
def State.pressing (s : State) : Bool := s.tracker.press == .running || s.tracker.press == .stopped

/-- Every strand, in increasing strand number, takes an arrival. -/
def State.eachStrand (f : Strand → Tracked) (s : State) : State :=
  strandsInOrder.foldl (fun s i => s.withTracked i (f s.tracker.strands[i])) s

/-- The press state set. -/
def State.withPress (s : State) (p : Press) : State := s.withTracker { s.tracker with press := p }

/-- BILLET_JOIN served (R96). -/
def State.billetJoin (s : State) : State × ReplyBody :=
  if s.pressing then pressReply 1 s.atDie (s.eachStrand (Strand.join s.store.card.line s.atDie)) else (s, refused .state)

/-- BILLET_JOIN (R96). -/
def execBilletJoin (s : State) : Answer := s.request .billetJoin State.billetJoin

/-- STOP served (R97). -/
def State.stop (s : State) : State × ReplyBody :=
  match s.tracker.press with
  | .running => pressReply 2 s.atDie ((s.withPress .stopped).eachStrand (Strand.halt s.store.card.line s.atDie))
  | .stopped => pressReply 2 s.atDie s
  | _ => (s, refused .state)

/-- STOP (R97). -/
def execStop (s : State) : Answer := s.request .stop State.stop

/-- RESUME served (R97). -/
def State.resume (s : State) : State × ReplyBody :=
  if s.pressing then pressReply 3 s.atDie (s.withPress .running) else (s, refused .state)

/-- RESUME (R97). -/
def execResume (s : State) : Answer := s.request .resume State.resume

/-- Every strand in NOSE or RUNNING takes its tail at `p`, and the press becomes ENDING (R98). -/
def Tracker.runEnd (p : Int) (t : Tracker) : Tracker :=
  { t with press := .ending, strands := Vector.ofFn fun i => t.strands[i].runEnd p }

/-- RUN_END served (R98). -/
def State.runEnd (s : State) : State × ReplyBody :=
  if s.pressing then pressReply 4 s.atDie (s.withTracker (s.tracker.runEnd s.atDie)) else (s, refused .state)

/-- RUN_END (R98). -/
def execRunEnd (s : State) : Answer := s.request .runEnd State.runEnd

/-- A strand's part of RUN_CLOSE at head coordinate `h`: its final length, and ENDED (R99). -/
def State.closeStrand (origin : Origin) (h : Int) (s : State) (i : Fin 4) : State :=
  if s.tracker.strands[i].active then
    let formed := s.finalLength origin i h
    formed.withStrand i formed.tracker.strands[i].ended
  else s

/-- How the final lengths of RUN_CLOSE come about (R99). -/
def Press.closing : Press → Origin
  | .ending => .closedEnding
  | _ => .closedRunning

/-- RUN_CLOSE served (R99). -/
def State.runClose (s : State) : State × ReplyBody :=
  if s.pressIdle then (s, refused .state)
  else ((strandsInOrder.foldl (State.closeStrand s.tracker.press.closing s.atHead) s).returnToIdle, okReply [])

/-- RUN_CLOSE (R99). -/
def execRunClose (s : State) : Answer := s.request .runClose State.runClose

/-- WITHDRAW served (R100). -/
def State.withdraw (strand : Byte) (s : State) : State × ReplyBody :=
  match indexOf 4 strand with
  | none => (s, refused .badValue)
  | some i =>
      let st := s.tracker.strands[i]
      if st.active then
        ((s.finalLength .withdrawn i s.atHead).endStrand i, okReply [yesNo (decide (st.lastCut < finalUpper st s.atHead))])
      else (s, refused .state)

/-- WITHDRAW (R100). -/
def execWithdraw (strand : Byte) (s : State) : Answer := s.request (.withdraw strand) (State.withdraw strand)

end Sys2Proof.Machine
end

