-- ==== Sys2Proof/Machine/ReportCommands.lean ====
section
/-! DEFINITION. The report unit's requests: GAUGE_LATCH (R170), GAUGE_READ (R171), REPORT_READ (R168), REPORT_DROP (R169),
READ_COUNTERS and CLEAR_COUNTERS (R176), CLEAR_FLAGS (R173), SET_ALARM_MASK (R174). -/

namespace Sys2Proof.Machine

/-- A GAUGE_LATCH with this mask fills the latch of strand `i` (R170). -/
def State.fillsLatch (mask : Byte) (s : State) (i : Fin 4) : Bool :=
  mask.getLsbD i.val && s.report.latches[i].isNone && s.engine.last[i].isSome

/-- The latches after GAUGE_LATCH (R170). -/
def State.latched (mask : Byte) (s : State) : Vector (Option LastResults) 4 :=
  Vector.ofFn fun i => if s.fillsLatch mask i then s.engine.last[i] else s.report.latches[i]

/-- GAUGE_LATCH served (R170). -/
def State.gaugeLatch (mask : Byte) (s : State) : State × ReplyBody :=
  if 15 < mask.toNat then (s, refused .badValue)
  else (s.withReport { s.report with latches := s.latched mask }, okReply [byteMask strandsInOrder (s.fillsLatch mask)])

/-- GAUGE_LATCH (R170). -/
def execGaugeLatch (mask : Byte) (s : State) : Answer := s.request (.gaugeLatch mask) (State.gaugeLatch mask)

/-- The reply that carries live values, marked NOT_LATCHED (R158, R171). -/
def liveReply (fields : List Byte) : ReplyBody := { status := .ok, reason := some .notLatched, fields := fields }

/-- GAUGE_READ served (R171). -/
def State.gaugeRead (strand : Byte) (s : State) : State × ReplyBody :=
  match indexOf 4 strand with
  | none => (s, refused .badValue)
  | some i =>
      match s.report.latches[i] with
      | some r => (s.withReport { s.report with latches := setAt s.report.latches i none }, okReply (gaugeFields (some r)))
      | none => (s, liveReply (gaugeFields s.engine.last[i]))

/-- GAUGE_READ (R171). -/
def execGaugeRead (strand : Byte) (s : State) : Answer := s.request (.gaugeRead strand) (State.gaugeRead strand)

/-- REPORT_READ (R168). -/
def execReportRead (s : State) : Answer := s.request .reportRead (answering fun s => okReply (reportFields s.report))

/-- REPORT_DROP served (R169). -/
def State.reportDrop (n : Word16) (s : State) : State × ReplyBody :=
  match s.report.queue with
  | [] => (s, refused .state)
  | r :: rest =>
      if r.sequence = n.toNat then (s.withReport { s.report with queue := rest }, okReply [byte rest.length])
      else (s, refused .sequence)

/-- REPORT_DROP (R169). -/
def execReportDrop (n : Word16) (s : State) : Answer := s.request (.reportDrop n) (State.reportDrop n)

/-- READ_COUNTERS (R176). -/
def execReadCounters (s : State) : Answer := s.request .readCounters (answering fun s => okReply (counterFields s.report.counters))

/-- CLEAR_COUNTERS served (R176). -/
def State.clearCounters (s : State) : State × ReplyBody :=
  (s.withReport { s.report with counters := Counters.zero }, okReply (counterFields s.report.counters))

/-- CLEAR_COUNTERS (R176). -/
def execClearCounters (s : State) : Answer := s.request .clearCounters State.clearCounters

/-- The report unit after CLEAR_FLAGS (R173): bits 11 to 15 of the mask are not examined. -/
def ReportUnit.clear (mask : Word16) (tally : Bool) (r : ReportUnit) : ReportUnit :=
  { r with flags := r.flags &&& ~~~(mask.setWidth 11), tally := if tally then Tally.zero else r.tally }

/-- CLEAR_FLAGS served (R173). -/
def State.clearFlags (mask : Word16) (tally : Byte) (s : State) : State × ReplyBody :=
  match yesNoOf tally with
  | none => (s, refused .badValue)
  | some t =>
      let r := s.report.clear mask t
      (s.withReport r, okReply (flagBytes r.flags ++ tallyFields s.report.tally))

/-- CLEAR_FLAGS (R173). -/
def execClearFlags (mask : Word16) (tally : Byte) (s : State) : Answer := s.request (.clearFlags mask tally) (State.clearFlags mask tally)

/-- SET_ALARM_MASK served (R174). -/
def State.setAlarmMask (mask : Word16) (s : State) : State × ReplyBody :=
  (s.withReport { s.report with mask := mask.setWidth 11 }, okReply (flagBytes (mask.setWidth 11)))

/-- SET_ALARM_MASK (R174). -/
def execSetAlarmMask (mask : Word16) (s : State) : Answer := s.request (.setAlarmMask mask) (State.setAlarmMask mask)

end Sys2Proof.Machine
end

