-- ==== Sys2Proof/Machine/Supply.lean ====
section
/-! DEFINITION. The supply commands: POWER_ON (R150) and SUPPLY_FAILURE (R151). -/

namespace Sys2Proof.Machine

/-- POWER_ON (R150): the straps and PULLER SELECT are sampled, the boot bank is loaded or the empty card taken, and every block
takes its power-on values. -/
def execPowerOn (straps : Straps) (selectHigh : Bool) (s : State) : Answer := .next (s.poweredOn straps selectHigh)

/-- SUPPLY_FAILURE (R151). -/
def execSupplyFailure (landed : Bool) (s : State) : Answer := s.event fun s => s.failed landed

end Sys2Proof.Machine
end

