-- ==== Sys2Proof/Machine/ThermalCommands.lean ====
section
/-! DEFINITION. The thermal unit's commands: PYRO_SAMPLE (R57 to R59) and HOLD_TIMER_EXPIRY (R59). -/

namespace Sys2Proof.Machine

/-- The state with one thermal record replaced. -/
def State.withThermalAt (s : State) (i : Fin 4) (r : ThermalRecord) : State := s.withThermal (setAt s.thermal i r)

/-- The strand enters FALLBACK; a strand below the strand count sets THERMAL_FALLBACK (R59). -/
def State.fallBack (i : Fin 4) (s : State) : State :=
  (s.withThermalAt i (s.thermal[i].enterFallback s.store.card.thermal)).withReport
    (s.report.raiseIf (decide (i.val < s.store.card.strands)) .thermalFallback)

/-- The temperature of a valid code (R57). -/
def sampleTemperature (code : BitVec 12) : Nat := 2000 + code.toNat

/-- A code is a valid sample (R57). -/
def validSample (code : BitVec 12) : Bool := code != 0 && code != 4095

/-- A conversion of a channel taken (R57 to R59). -/
def State.takeSample (i : Fin 4) (code : BitVec 12) (s : State) : State :=
  if validSample code then
    s.withThermalAt i (s.thermal[i].sample s.store.card.thermal s.now (sampleTemperature code))
  else if s.store.card.thermal.hold = 0 ∧ s.thermal[i].fallback = false then s.fallBack i
  else s

/-- PYRO_SAMPLE (R57). -/
def execPyroSample (channel : Fin 4) (code : BitVec 12) (s : State) : Answer := s.event (State.takeSample channel code)

/-- A strand's hold timer reaches its deadline; a stopped timer has none (R59). -/
def State.expireHold (i : Fin 4) (s : State) : State :=
  match s.thermal[i].timer with
  | none => s
  | some d => if s.thermal[i].fallback then s else (s.reach d).fallBack i

/-- HOLD_TIMER_EXPIRY (R59). -/
def execHoldTimerExpiry (strand : Fin 4) (s : State) : Answer := s.event (State.expireHold strand)

end Sys2Proof.Machine
end

