-- ==== Sys2Proof/Machine/TrackerCommands.lean ====
section
/-! DEFINITION. The strand tracker's arrivals from the section engine and the travel unit: SCAN_EVENT (R110), ZONE_OPEN_EVENT
(R103), ZONE_UPDATE_EVENT (R104), ZONE_CLOSE_EVENT (R105), LOST_CUT_REPORT (R30), TAKE_CUT (R115); and the readout TRACK_READ
(R113). -/

namespace Sys2Proof.Machine

/-- A scan event taken (R110, R111). -/
def State.takeScan (e : ScanEvent) (s : State) : State := s.withTracked e.strand (s.tracker.strands[e.strand].takeScan e)

/-- SCAN_EVENT (R110). -/
def execScanEvent (e : ScanEvent) (s : State) : Answer := s.event fun s => s.takeEvent (.scan e) (State.takeScan e)

/-- An open event taken (R103, R111). -/
def State.takeOpen (e : ZoneOpen) (s : State) : State := s.withTracked e.strand (s.tracker.strands[e.strand].openZone e)

/-- ZONE_OPEN_EVENT (R103). -/
def execZoneOpenEvent (e : ZoneOpen) (s : State) : Answer := s.event fun s => s.takeEvent (.start e) (State.takeOpen e)

/-- An update event taken (R104, R111). -/
def State.takeUpdate (e : ZoneUpdate) (s : State) : State := s.withStrand e.strand (s.tracker.strands[e.strand].updateZone e)

/-- ZONE_UPDATE_EVENT (R104). -/
def execZoneUpdateEvent (e : ZoneUpdate) (s : State) : Answer := s.event fun s => s.takeEvent (.update e) (State.takeUpdate e)

/-- A close event taken (R105, R107, R108, R111). -/
def State.takeClose (e : ZoneClose) (s : State) : State :=
  s.withTracked e.strand (s.tracker.strands[e.strand].closeZone s.store.card e)

/-- ZONE_CLOSE_EVENT (R105). -/
def execZoneCloseEvent (e : ZoneClose) (s : State) : Answer := s.event fun s => s.takeEvent (.close e) (State.takeClose e)

/-- A lost-cut report taken: the marks, and one report fewer on its way (R30; log entry 6). -/
def State.takeLostCut (s : State) : State :=
  let t := s.tracker.markLost
  s.withTracker
    (if 0 < t.reportsDue then { t with reportsDue := t.reportsDue - 1 } else { t with reports := t.reports - 1 })

/-- LOST_CUT_REPORT (R30). -/
def execLostCutReport (s : State) : Answer := s.event State.takeLostCut

/-- The lost-cut reports that must come before the next cut are taken (R30). -/
def State.takeDueReports (s : State) : State :=
  if 0 < s.tracker.reportsDue then s.withTracker { s.tracker.markLost with reportsDue := 0 } else s

/-- The cut at `c` taken on every strand (R115). -/
def State.cutStrands (c : Int) (s : State) : State := strandsInOrder.foldl (State.cutStrand c) s

/-- The cut at `c` forms a record on some strand (R132). -/
def Tracker.formsRecord (c : Int) (t : Tracker) : Bool := strandsInOrder.any fun i => t.strands[i].formsLength c

/-- The pending-limits list is applied after a cut that formed a record (R132). -/
def State.applyPending (s : State) : State := s.withStore s.store.applyPending

/-- The entry of the cut being taken leaves the queue, and the reports that arrived meanwhile come before the next cut (R30, R31). -/
def State.leaveCut (rest : List Nat) (s : State) : State :=
  (s.withRunout { s.runout with cuts := rest }).withTracker { s.tracker with reports := 0, reportsDue := s.tracker.reports }

/-- The oldest cut of the queue is taken whole (R31, R115, R132). -/
def State.takeCut (s : State) : State :=
  match s.runout.cuts with
  | [] => s
  | travel :: rest =>
      let ready := s.takeDueReports
      let c := sawCoordinate s.store.card.line travel
      let cut := ready.cutStrands c
      (if ready.tracker.formsRecord c then cut.applyPending else cut).leaveCut rest

/-- TAKE_CUT (R115). -/
def execTakeCut (s : State) : Answer := s.event State.takeCut

/-- TRACK_READ served (R113). -/
def State.trackRead (strand start : Byte) (s : State) : ReplyBody :=
  match indexOf 4 strand with
  | none => refused .badValue
  | some i => if 47 < start.toNat then refused .badValue else okReply (trackFields s.tracker.strands[i] start.toNat)

/-- TRACK_READ (R113). -/
def execTrackRead (strand start : Byte) (s : State) : Answer :=
  s.request (.trackRead strand start) (answering (State.trackRead strand start))

end Sys2Proof.Machine
end

