-- ==== Sys2Proof/Machine/TravelCommands.lean ====
section
/-! DEFINITION. The travel unit's commands: FORWARD_COUNT, REVERSE_COUNT, PULLER_SELECT_CHANGE, CUT_EDGE (R16 to R19, R29, R30),
SET_TRIGGER (R25) and TRIGGER_ONCE (R27). -/

namespace Sys2Proof.Machine

/-- The other puller. -/
def otherPuller : Puller → Puller
  | .a => .b
  | .b => .a

/-- A forward count of the active puller at scale `scale` (R17). -/
def State.advance (ch : Puller) (scale : Nat) (s : State) : State :=
  let d := s.runout.deficit ch
  if scale ≤ d then s.withRunout (s.runout.withDeficit ch (d - scale))
  else (s.withRunout (s.runout.withDeficit ch 0)).growTravel (scale - d)

/-- FORWARD_COUNT (R16, R17). -/
def execForwardCount (ch : Puller) (s : State) : Answer :=
  s.event fun s => if s.runout.active = ch then s.advance ch (scaleOf s.store.card.line ch) else s

/-- The deficit after a reverse count (R18). -/
def TravelUnit.back (ch : Puller) (scale : Nat) (r : TravelUnit) : TravelUnit :=
  r.withDeficit ch (bump deficitTop (r.deficit ch) scale)

/-- REVERSE_COUNT (R16, R18). -/
def execReverseCount (ch : Puller) (s : State) : Answer :=
  s.event fun s => if s.runout.active = ch then s.withRunout (s.runout.back ch (scaleOf s.store.card.line ch)) else s

/-- The travel unit after a change of PULLER SELECT (R19). -/
def TravelUnit.switch (r : TravelUnit) : TravelUnit :=
  ({ r with active := otherPuller r.active } : TravelUnit).withDeficit (otherPuller r.active) 0

/-- PULLER_SELECT_CHANGE (R19). -/
def execPullerSelectChange (s : State) : Answer := s.event fun s => s.withRunout s.runout.switch

/-- The places of the cut queue (R29). -/
def cutPlaces : Nat := 4

/-- A cut edge taken: latched, or lost, counted and reported to the tracker (R29, R30). -/
def State.latchCut (s : State) : State :=
  if s.runout.cuts.length < cutPlaces then s.withRunout { s.runout with cuts := s.runout.cuts ++ [s.runout.travel] }
  else (s.withReport s.report.countLostCut).withTracker { s.tracker with reports := s.tracker.reports + 1 }

/-- CUT_EDGE (R29): an edge whose line stays high for less than 100 µs is ignored. -/
def execCutEdge (highMicros : Nat) (s : State) : Answer := s.event fun s => if highMicros < 100 then s else s.latchCut

/-- SET_TRIGGER served (R25). -/
def State.setTrigger (mode : Byte) (s : State) : State × ReplyBody :=
  match modeOf mode with
  | none => (s, refused .badValue)
  | some m =>
      let r : TravelUnit := { s.runout with mode := m }
      (s.withRunout r, okReply (triggerFields r))

/-- SET_TRIGGER (R25). -/
def execSetTrigger (mode : Byte) (s : State) : Answer := s.request (.setTrigger mode) (State.setTrigger mode)

/-- TRIGGER_ONCE served (R27). -/
def State.triggerOnce (s : State) : State × ReplyBody :=
  if s.tracker.press = .running ∨ s.tracker.press = .ending then (s, refused .state)
  else if s.scan.check.isSome then (s, refused .busy)
  else
    match s.scan.lowestFree with
    | none => (s, refused .busy)
    | some i => (s.takeSlot i true s.runout.travel, okReply (le16 s.scan.nextNumber))

/-- TRIGGER_ONCE (R27). -/
def execTriggerOnce (s : State) : Answer := s.request .triggerOnce State.triggerOnce

end Sys2Proof.Machine
end

