-- ==== Sys2Proof/Machine/Dispatch.lean ====
section
/-! DEFINITION. The dispatch: one arm for each command, each a direct call of its meaning. -/

namespace Sys2Proof.Machine

/-- The effect of a command on everything but the queue. -/
def exec (i : Instr) (s : State) : Host.Outcome State Fault Refusal :=
  match i with
  | .powerOn straps selectHigh => Sys2Proof.Machine.execPowerOn straps selectHigh s
  | .forwardCount channel => Sys2Proof.Machine.execForwardCount channel s
  | .reverseCount channel => Sys2Proof.Machine.execReverseCount channel s
  | .pullerSelectChange => Sys2Proof.Machine.execPullerSelectChange s
  | .cutEdge highMicros => Sys2Proof.Machine.execCutEdge highMicros s
  | .lostCutReport => Sys2Proof.Machine.execLostCutReport s
  | .takeCut => Sys2Proof.Machine.execTakeCut s
  | .lineFrame bytes => Sys2Proof.Machine.execLineFrame bytes s
  | .lineWaitExpiry slot => Sys2Proof.Machine.execLineWaitExpiry slot s
  | .strandEvaluation strand => Sys2Proof.Machine.execStrandEvaluation strand s
  | .slotEvaluationEnd => Sys2Proof.Machine.execSlotEvaluationEnd s
  | .scanEvent e => Sys2Proof.Machine.execScanEvent e s
  | .zoneOpenEvent e => Sys2Proof.Machine.execZoneOpenEvent e s
  | .zoneUpdateEvent e => Sys2Proof.Machine.execZoneUpdateEvent e s
  | .zoneCloseEvent e => Sys2Proof.Machine.execZoneCloseEvent e s
  | .pyroSample channel code => Sys2Proof.Machine.execPyroSample channel code s
  | .holdTimerExpiry strand => Sys2Proof.Machine.execHoldTimerExpiry strand s
  | .checkLimitExpiry => Sys2Proof.Machine.execCheckLimitExpiry s
  | .bankStoreEnd found => Sys2Proof.Machine.execBankStoreEnd found s
  | .watchdogExpiry => Sys2Proof.Machine.execWatchdogExpiry s
  | .frameGapTimeout => Sys2Proof.Machine.execFrameGapTimeout s
  | .linkFrame bytes => Sys2Proof.Machine.execLinkFrame bytes s
  | .replySent => Sys2Proof.Machine.execReplySent s
  | .status => Sys2Proof.Machine.execStatus s
  | .ident => Sys2Proof.Machine.execIdent s
  | .setHead head record => Sys2Proof.Machine.execSetHead head record s
  | .setCurve head points => Sys2Proof.Machine.execSetCurve head points s
  | .setFeature feature record => Sys2Proof.Machine.execSetFeature feature record s
  | .clearFeature feature => Sys2Proof.Machine.execClearFeature feature s
  | .setLimits feature limits => Sys2Proof.Machine.execSetLimits feature limits s
  | .setThermal record => Sys2Proof.Machine.execSetThermal record s
  | .setLine record => Sys2Proof.Machine.execSetLine record s
  | .setIdentity die revision alloy strands => Sys2Proof.Machine.execSetIdentity die revision alloy strands s
  | .readCard part index => Sys2Proof.Machine.execReadCard part index s
  | .bankLoad bank => Sys2Proof.Machine.execBankLoad bank s
  | .bankStore bank => Sys2Proof.Machine.execBankStore bank s
  | .bankLock bank mode => Sys2Proof.Machine.execBankLock bank mode s
  | .bankInfo => Sys2Proof.Machine.execBankInfo s
  | .setBoot bank => Sys2Proof.Machine.execSetBoot bank s
  | .runStart => Sys2Proof.Machine.execRunStart s
  | .billetJoin => Sys2Proof.Machine.execBilletJoin s
  | .stop => Sys2Proof.Machine.execStop s
  | .resume => Sys2Proof.Machine.execResume s
  | .runEnd => Sys2Proof.Machine.execRunEnd s
  | .runClose => Sys2Proof.Machine.execRunClose s
  | .withdraw strand => Sys2Proof.Machine.execWithdraw strand s
  | .setTrigger mode => Sys2Proof.Machine.execSetTrigger mode s
  | .triggerOnce => Sys2Proof.Machine.execTriggerOnce s
  | .headCheck mask exposure => Sys2Proof.Machine.execHeadCheck mask exposure s
  | .headInfo => Sys2Proof.Machine.execHeadInfo s
  | .gaugeLatch mask => Sys2Proof.Machine.execGaugeLatch mask s
  | .gaugeRead strand => Sys2Proof.Machine.execGaugeRead strand s
  | .trackRead strand start => Sys2Proof.Machine.execTrackRead strand start s
  | .reportRead => Sys2Proof.Machine.execReportRead s
  | .reportDrop sequence => Sys2Proof.Machine.execReportDrop sequence s
  | .readCounters => Sys2Proof.Machine.execReadCounters s
  | .clearCounters => Sys2Proof.Machine.execClearCounters s
  | .clearFlags mask tally => Sys2Proof.Machine.execClearFlags mask tally s
  | .setAlarmMask mask => Sys2Proof.Machine.execSetAlarmMask mask s
  | .setWatchdog interval => Sys2Proof.Machine.execSetWatchdog interval s
  | .forceFailsafe => Sys2Proof.Machine.execForceFailsafe s
  | .clearFailsafe => Sys2Proof.Machine.execClearFailsafe s
  | .restart => Sys2Proof.Machine.execRestart s
  | .supplyFailure landed => Sys2Proof.Machine.execSupplyFailure landed s

end Sys2Proof.Machine
end

