-- ==== Sys2Proof/Safety.lean ====
section
/-! DEFINITION. What the part keeps at every step: the invariants that the statements are about, one for each kind of state,
each with the rules it comes from. -/

namespace Sys2Proof.Machine

/-- The part has supply and its link port lets the command be served (R156, R157). -/
def State.serves (s : State) (c : Instr) : Prop := s.powered = true ∧ s.link.admits c = true

/-- The state with a reply in formation to the request that a command serves, and nothing else changed (R157, R158). -/
def State.answered (s : State) (c : Instr) (b : ReplyBody) : State :=
  { s with link := { s.link with reply := some { kind := replyKind (kindByteOf c), body := b } } }

/-- The command is refused with a reason, and nothing but the reply changes (R158, R159). -/
def State.refuses (s : State) (c : Instr) (r : Reason) : Prop :=
  exec c s = .next (s.answered c { status := .refused, reason := some r, fields := [] })

/-- A waiting event of the engine is this one, or none waits (R86; log entry 5). -/
def State.offers (s : State) (e : TrackerEvent) : Prop := s.engine.sent = [] ∨ s.engine.sent.head? = some e

/-- The state with the event taken off the engine's outbox (R86; log entry 5). -/
def State.received (s : State) : State := { s with engine := { s.engine with sent := s.engine.sent.tail } }

/-- The travel unit keeps to its ranges: travel, deficits, the cut queue, the pitches, and the remainder, never above the travel
and below the pitch while the press is not IDLE (R17, R18, R23, R24, R29). -/
def State.TravelSound (s : State) : Prop :=
  s.runout.travel ≤ 1099511627775 ∧ s.runout.deficitA ≤ 4294967295 ∧ s.runout.deficitB ≤ 4294967295
    ∧ s.runout.cuts.length ≤ 4 ∧ (∀ t ∈ s.runout.cuts, t ≤ 1099511627775)
    ∧ (1000 ≤ s.runout.pitch ∧ s.runout.pitch ≤ 100000)
    ∧ (∀ p, s.runout.nextPitch = some p → 1000 ≤ p ∧ p ≤ 100000)
    ∧ s.runout.remainder ≤ s.runout.travel ∧ (s.tracker.press ≠ .idle → s.runout.remainder < s.runout.pitch)

/-- Limits set aside keep to the ranges of a feature's limits (R140). -/
def CardStore.pendingInRange (x : CardStore) : Prop := ∀ f l, x.pendingLimits[(f : Fin 32)] = some l → l.inRange = true

/-- A bank's content, where it is a card, keeps to its ranges (R2). -/
def CardStore.banksInRange (x : CardStore) : Prop := ∀ b c, x.banks[(b : Fin 8)].content = .card c → c.inRange = true

/-- The copy of a store in flight keeps to its ranges. -/
def BankEngine.copyInRange : BankEngine → Prop
  | .idle => True
  | .storing j => j.copy.inRange = true
  | .suspended j => j.copy.inRange = true

/-- The working card and every card held beside it keep to the ranges of their tables (R1, R2, R4, R62, R69, R134 to R136). -/
def State.CardsSound (s : State) : Prop :=
  s.store.card.inRange = true ∧ s.store.pendingInRange ∧ s.store.banksInRange ∧ s.store.engine.copyInRange

/-- The digest of a store in flight is that of its copy (R146). -/
def BankEngine.digestAgrees : BankEngine → Prop
  | .idle => True
  | .storing j => j.digest = digestOf j.copy
  | .suspended j => j.digest = digestOf j.copy

/-- The digests agree with the cards: that of the working card, that of a copy being stored, and that of every valid bank,
whose content is a card (R143, R144, R146). -/
def State.DigestsSound (s : State) : Prop :=
  s.store.digest = digestOf s.store.card ∧ s.store.engine.digestAgrees
    ∧ ∀ b, s.store.banks[(b : Fin 8)].valid = true →
        ∃ c, s.store.banks[b].content = .card c ∧ s.store.banks[b].digest = digestOf c

/-- A bank being stored is not valid and holds the digest of the copy (R146). -/
def CardStore.storesUnder (x : CardStore) : BankEngine → Prop
  | .idle => True
  | .storing j => x.banks[j.bank].valid = false ∧ x.banks[j.bank].digest = j.digest
  | .suspended j => x.banks[j.bank].valid = false ∧ x.banks[j.bank].digest = j.digest

/-- No valid bank has content that does not give its digest, a bank being stored is not valid, and no command leaves the engine
SUSPENDED (R146 to R148). -/
def State.BanksSound (s : State) : Prop :=
  s.store.storesUnder s.store.engine ∧ (∀ j, s.store.engine ≠ .suspended j) ∧ ∀ b, s.store.banks[(b : Fin 8)].valid = true → s.store.banks[b].intact = true

/-- The closed-zone list of a strand: ordered by start, at most 48 entries, each with its start below its end and at or above
the last cut (R106, R117). -/
def Strand.listSound (st : Strand) : Prop :=
  st.closed.Pairwise (fun a b => a.start ≤ b.start) ∧ st.closed.length ≤ 48
    ∧ ∀ z ∈ st.closed, z.start < z.finish ∧ st.lastCut ≤ z.start

/-- The open-zone table of a strand: every present entry starts at or above the last cut (R102). -/
def Strand.tableSound (st : Strand) : Prop :=
  (∀ f o, st.dimensions[(f : Fin 32)] = some o → st.lastCut ≤ o.start) ∧ (∀ f o, st.blinds[(f : Fin 32)] = some o → st.lastCut ≤ o.start)

/-- Every zone that the tracker holds starts at or above its strand's last cut, and every list is as R106 has it (R102, R106,
R117). -/
def State.TrackSound (s : State) : Prop := ∀ i, s.tracker.strands[(i : Fin 4)].listSound ∧ s.tracker.strands[i].tableSound

/-- The press is IDLE exactly while no strand is in NOSE, RUNNING or TAILING, and then the pending-limits list is empty (R101,
R140). -/
def State.PressSound (s : State) : Prop :=
  (s.tracker.press = .idle ↔ ∀ i, s.tracker.strands[(i : Fin 4)].active = false)
    ∧ (s.tracker.press = .idle → ∀ f, s.store.pendingLimits[(f : Fin 32)] = none)

/-- An entry of the head table of a head that is enabled or not (R44, R48, R49). -/
def HeadEntry.sound (enabled : Bool) (e : HeadEntry) : Prop :=
  (e.state = .offline ↔ enabled = false) ∧ (enabled = false → e.miss = 0 ∧ e.sparse = 0)
    ∧ (e.state = .fault → 8 ≤ e.miss) ∧ (e.state = .blinded → 8 ≤ e.sparse) ∧ e.miss ≤ 255 ∧ e.sparse ≤ 255

/-- The head table shows which heads the working card enables (R48). -/
def State.HeadsSound (s : State) : Prop := ∀ h, s.scan.heads[(h : Fin 8)].sound s.store.card.heads[h].enabled

/-- A slot is EVALUATING exactly while the section engine evaluates it; trigger numbers stay below 65535 (R35, R45). -/
def State.SlotsSound (s : State) : Prop :=
  (∀ i k, s.scan.slots[(i : Fin 4)] = some k →
      (k.phase = .evaluating ↔ ∃ v, s.engine.evaluation = some v ∧ v.slot = i) ∧ k.number < 65535)
    ∧ (∀ v, s.engine.evaluation = some v → s.scan.slots[v.slot].isSome = true) ∧ s.scan.nextNumber < 65535

/-- The thermal records keep to their ranges, and a strand in FALLBACK holds the default temperature with its timer stopped
(R56, R59, R63). -/
def State.ThermalSound (s : State) : Prop :=
  ∀ i, (2000 ≤ s.thermal[(i : Fin 4)].temperature ∧ s.thermal[i].temperature ≤ 6095)
    ∧ (s.thermal[i].fallback = true → s.thermal[i].timer = none ∧ s.thermal[i].temperature = s.store.card.thermal.defaultTemp)

/-- The report queue holds at most 64 records with consecutive sequence numbers, the newest just before the next (R121, R167). -/
def State.ReportsSound (s : State) : Prop :=
  s.report.nextSequence < 65536 ∧ s.report.queue.length ≤ 64
    ∧ ∀ (i : Nat) (r : LengthRecord), s.report.queue[i]? = some r →
        r.sequence = (s.report.nextSequence + 65536 - s.report.queue.length + i) % 65536

/-- A nine-counter set keeps to 16 bits (R176). -/
def Counters.sound (c : Counters) : Prop :=
  c.linkCrc ≤ 65535 ∧ c.overrun ≤ 65535 ∧ c.lineCrc ≤ 65535 ∧ c.duplicate ≤ 65535 ∧ c.lateLine ≤ 65535 ∧ c.skipped ≤ 65535
    ∧ c.lateResult ≤ 65535 ∧ c.coarsening ≤ 65535 ∧ c.lostCut ≤ 65535

/-- Every counter keeps to 16 bits, and every tally count to 32 (R167, R176). -/
def State.CountsSound (s : State) : Prop :=
  s.report.counters.sound ∧ s.report.tally.lengths ≤ 4294967295 ∧ s.report.tally.rejects ≤ 4294967295
    ∧ s.report.tally.millis ≤ 4294967295

/-- The watchdog's interval is 0 or from 50 to 60,000 ms, and with 0 its timer is stopped (R160, R161); the link driver is on only
while a reply is being sent (R153). -/
def State.WatchdogSound (s : State) : Prop :=
  (s.link.interval = 0 ∨ (50 ≤ s.link.interval ∧ s.link.interval ≤ 60000)) ∧ (s.link.interval = 0 → s.link.deadline = none)
    ∧ (s.link.driver = true → s.link.reply.isSome = true)

/-- `q` is the nearest integer to `a / b`, the one further from zero where two are as near (00_scope, Rounding). -/
def Rounds (a : Int) (b : Nat) (q : Int) : Prop :=
  2 * (a - q * b).natAbs ≤ b ∧ (2 * (a - q * b).natAbs = b → a.natAbs < (q * b).natAbs)

/-- How many trigger numbers lie from a slot's own to the next one, counted modulo 65535 (R35; log entry 17). -/
def ScanAssembler.distance (a : ScanAssembler) (k : Slot) : Nat := (a.nextNumber + 65535 - k.number) % 65535

/-- `t` is what a try of the hand-over makes of `s`, the whole state (R45, R74, R90): while a slot is EVALUATING, or with every slot
FREE, nothing; else the oldest slot decides. Not CLOSED, it is waited for. CLOSED, it becomes EVALUATING, and the evaluation begins
with the working card, the strands of R74 to do, in increasing number, and as a track evaluation where the slot is not manual. -/
def State.HandsOver (s t : State) : Prop :=
  ((∃ j k, s.scan.slots[(j : Fin 4)] = some k ∧ k.phase = .evaluating) → t = s)
  ∧ ((∀ j, s.scan.slots[(j : Fin 4)] = none) → t = s)
  ∧ ((∀ j k, s.scan.slots[(j : Fin 4)] = some k → k.phase ≠ .evaluating) →
    ∀ (j : Fin 4) (k : Slot), s.scan.slots[j] = some k →
      (∀ i m, s.scan.slots[(i : Fin 4)] = some m →
        s.scan.distance m < s.scan.distance k ∨ s.scan.distance m = s.scan.distance k ∧ j ≤ i) →
      (k.phase ≠ .closed → t = s)
      ∧ (k.phase = .closed → ∀ todo : List (Fin 4),
          todo = (if k.manual then strandsInOrder.filter fun i => decide (i.val < s.store.card.strands)
            else if s.engine.stale[j] then []
            else strandsInOrder.filter fun i => decide (i.val < s.store.card.strands) && s.tracker.strands[i].active
              && decide (0 ≤ k.x) && (match s.tracker.strands[i].tail with
                  | some tail => decide (k.x < tail)
                  | none => true)) →
          t = { s with
            scan := { s.scan with slots := setAt s.scan.slots j (some { k with phase := .evaluating }) },
            engine := { s.engine with
              evaluation := some { slot := j, card := s.store.card, track := !k.manual, todo := todo } } }))

/-- The number in `size` bytes of a payload from an offset on, least significant byte first (R163). -/
def numberAt (bs : List Byte) (offset size : Nat) : Nat := ((bs.drop offset).take size).foldr (fun b n => b.toNat + 256 * n) 0

/-- A signed number in the 4 bytes that carry it, in two's complement (R163). -/
def signed32 (i : Int) : Nat := (i % 4294967296).toNat

/-- What BANK_STORE_END finds in the bank's memory is a card as it was to be written, or not whole; no other bytes. -/
def noForeignStore : Instr → Prop
  | .bankStoreEnd (.other _) => False
  | _ => True

end Sys2Proof.Machine
end

