-- ==== Sys2Proof/WellFormed.lean ====
section
/-! DEFINITION. When a command is well formed: the operands that can reach the part. Fields of a telegram are words of
their own size (R163), so their sizes need no check. -/

namespace Sys2Proof

/-- Trended values are listed in increasing feature index. -/
def TrendValue.increasing : List TrendValue → Bool
  | [] => true
  | [_] => true
  | a :: b :: rest => decide (a.feature < b.feature) && TrendValue.increasing (b :: rest)

/-- A scan event as the engine can send it (R57, R64, R69, R87): a temperature from 2000 to 6095 dT, at most 8 trended
values, in increasing feature index. -/
def ScanEvent.wf (e : ScanEvent) : Bool :=
  decide (2000 ≤ e.temperature ∧ e.temperature ≤ 6095) && decide (e.trended.length ≤ 8) && TrendValue.increasing e.trended

/-- A worst as the engine can send it: the excess is at least 1 µm (R79). -/
def Worst.wf (w : Worst) : Bool := decide (1 ≤ w.excess)

/-- The check of one command, with an arm for every constructor. -/
def Instr.wf : Instr → Bool
  | .powerOn _ _ => true
  | .forwardCount _ => true
  | .reverseCount _ => true
  | .pullerSelectChange => true
  | .cutEdge _ => true
  | .lostCutReport => true
  | .takeCut => true
  | .lineFrame _ => true
  | .lineWaitExpiry _ => true
  | .strandEvaluation _ => true
  | .slotEvaluationEnd => true
  | .scanEvent e => e.wf
  | .zoneOpenEvent e =>
      match e.finding with
      | .dimension _ worst => worst.wf
      | .blind => true
  | .zoneUpdateEvent e =>
      match e.worst with
      | some worst => worst.wf
      | none => true
  | .zoneCloseEvent _ => true
  | .pyroSample _ _ => true
  | .holdTimerExpiry _ => true
  | .checkLimitExpiry => true
  | .bankStoreEnd _ => true
  | .watchdogExpiry => true
  | .frameGapTimeout => true
  | .linkFrame _ => true
  | .replySent => true
  | .status => true
  | .ident => true
  | .setHead _ _ => true
  | .setCurve _ points => decide (points.length = 17)
  | .setFeature _ _ => true
  | .clearFeature _ => true
  | .setLimits _ _ => true
  | .setThermal _ => true
  | .setLine _ => true
  | .setIdentity _ _ _ _ => true
  | .readCard _ _ => true
  | .bankLoad _ => true
  | .bankStore _ => true
  | .bankLock _ _ => true
  | .bankInfo => true
  | .setBoot _ => true
  | .runStart => true
  | .billetJoin => true
  | .stop => true
  | .resume => true
  | .runEnd => true
  | .runClose => true
  | .withdraw _ => true
  | .setTrigger _ => true
  | .triggerOnce => true
  | .headCheck _ _ => true
  | .headInfo => true
  | .gaugeLatch _ => true
  | .gaugeRead _ => true
  | .trackRead _ _ => true
  | .reportRead => true
  | .reportDrop _ => true
  | .readCounters => true
  | .clearCounters => true
  | .clearFlags _ _ => true
  | .setAlarmMask _ => true
  | .setWatchdog _ => true
  | .forceFailsafe => true
  | .clearFailsafe => true
  | .restart => true
  | .supplyFailure _ => true

end Sys2Proof
end

