-- ==== Sys2Proof/Certificates/Slice0/Obligations.lean ====
section
/-! DEFINITION. The statements for the provers, from the numbered rules of spec/: what one step runs, what every step keeps, what
each command does and leaves, family by family. -/

section

open Sys2Proof Sys2Proof.Machine

/-! ### One step -/

/-- Step runs the command at the front of the queue on the queue's rest; on an empty queue a powered part lets a millisecond
pass, by the end of which a reply that stood formed is being sent (the model's choice, log entries 1, 2 and 7). -/
def Obligations.StepRunsFrontCommand : Prop :=
  (∀ (c : Instr) (rest : List Instr) (s : State), step { s with pending := c :: rest } = exec c { s with pending := rest })
    ∧ ∀ s : State, s.pending = [] → step s = .next (if s.powered then
        { s with now := s.now + 1, link := { s.link with driver := s.link.driver || s.link.reply.isSome } } else s)

/-- Every command answers a next state, and none touches the queue (log entry 1; no rule stops the part). -/
def Obligations.EveryCommandAnswersAndLeavesTheQueue : Prop :=
  ∀ (c : Instr) (s : State), ∃ t, exec c s = .next t ∧ t.pending = s.pending

/-- Without supply nothing but POWER_ON has an effect, and no output line is asserted (00_scope; log entry 13). -/
def Obligations.UnpoweredPartStandsStill : Prop :=
  ∀ (c : Instr) (s : State), s.powered = false →
    ((∀ straps high, c ≠ .powerOn straps high) → exec c s = .next s) ∧ s.alarmLine = false ∧ ∀ i, s.rejectLine i = false

/-! ### What every step keeps -/

/-- Every invariant of Safety.lean holds right after reset. -/
def Obligations.InvariantsHoldAtReset : Prop :=
  State.reset.TravelSound ∧ State.reset.CardsSound ∧ State.reset.DigestsSound ∧ State.reset.BanksSound ∧ State.reset.TrackSound
    ∧ State.reset.PressSound ∧ State.reset.HeadsSound ∧ State.reset.SlotsSound ∧ State.reset.ThermalSound
    ∧ State.reset.ReportsSound ∧ State.reset.CountsSound ∧ State.reset.WatchdogSound

/-- R1, R2, R4, R62, R69, R134 to R136, R140: cards keep to their ranges. -/
def Obligations.StepKeepsCardsInRange : Prop := ∀ s t : State, s.CardsSound → step s = .next t → t.CardsSound

/-- R17, R18, R23, R24, R29: the travel unit keeps to its ranges, and the remainder is never above the travel. -/
def Obligations.StepKeepsTravelUnit : Prop := ∀ s t : State, s.CardsSound → s.TravelSound → step s = .next t → t.TravelSound

/-- R143, R144, R146: the digests agree with the cards, unless a store ends on bytes that are no card's. -/
def Obligations.StepKeepsDigests : Prop :=
  ∀ s t : State, (∀ c, s.pending.head? = some c → noForeignStore c) → s.BanksSound → s.DigestsSound → step s = .next t →
    t.DigestsSound

/-- R146 to R148: a valid bank gives its digest, a bank being stored is not valid, and the engine is never left SUSPENDED. -/
def Obligations.StepKeepsBanks : Prop := ∀ s t : State, s.BanksSound → step s = .next t → t.BanksSound

/-- R102, R106, R108, R117: lists ordered, at most 48, and every zone at or above its strand's last cut. -/
def Obligations.StepKeepsTrack : Prop := ∀ s t : State, s.TrackSound → step s = .next t → t.TrackSound

/-- R101, R140: the press is IDLE exactly while no strand is active, and then no limits are pending. -/
def Obligations.StepKeepsPressAndStrands : Prop := ∀ s t : State, s.PressSound → step s = .next t → t.PressSound

/-- R3, R35, R36, R44, R45, R48, R49: the head table agrees with the card; one slot at most is EVALUATING, the one the engine
evaluates. -/
def Obligations.StepKeepsHeadAndSlotTables : Prop :=
  (∀ s t : State, s.HeadsSound → step s = .next t → t.HeadsSound)
    ∧ ∀ s t : State, s.SlotsSound → step s = .next t → t.SlotsSound

/-- R56 to R59, R63: temperatures in range, FALLBACK at the default temperature. -/
def Obligations.StepKeepsThermalRecords : Prop :=
  ∀ s t : State, s.CardsSound → s.ThermalSound → step s = .next t → t.ThermalSound

/-- R121, R160, R161, R167, R169, R176: at most 64 records with consecutive sequence numbers; counters and tally saturate; the
watchdog keeps its interval in range, and its timer stopped where the interval is 0; the link driver is on only while a reply
is being sent (R153; log entry 7). -/
def Obligations.StepKeepsReportsCountersAndWatchdog : Prop :=
  (∀ s t : State, s.ReportsSound → step s = .next t → t.ReportsSound)
    ∧ (∀ s t : State, s.CountsSound → step s = .next t → t.CountsSound)
    ∧ ∀ s t : State, s.WatchdogSound → step s = .next t → t.WatchdogSound

/-! ### The links -/

/-- R154 to R157, R161, R163, R166: the frame that a line controller sends for a well-formed request puts exactly that request in
service, for every request and every value of its fields, and restarts the watchdog. The part's driver is off (R153). The command
put in service is the model's (log entry 4). -/
def Obligations.RequestFrameEntersService : Prop :=
  ∀ (s : State) (c : Instr) (k : Nat), s.powered = true → s.link.receiver = .hunt → s.link.driver = false → s.link.service = none →
    c.wf = true →
    kindOf c = some k →
      exec (.linkFrame (frameOf (addressOf s.link.straps) (byte k) (payloadOf c))) s =
        .next { s with link := { s.link with
          service := some { kind := byte k, request := some c }, reply := none,
          deadline := if s.link.interval = 0 then none else some (s.now + s.link.interval) } }

/-- R153, R155, R156: frames that are discarded: an overrun, a foreign frame of any length, a corrupt frame, a bad length, a frame
abandoned after a gap of more than 2 ms; and while the part's driver is on nothing is received. When the driver goes on is the
model's (log entry 7), and so is the answer to a gap in HUNT, an event whose condition does not hold (log entry 1). -/
def Obligations.DiscardedFramesAreCounted : Prop :=
  (∀ s : State, s.powered = true →
    (s.link.receiver = .hunt → exec .frameGapTimeout s = .next s)
    ∧ (∀ got, s.link.receiver = .frame got → got.head? ≠ some (addressOf s.link.straps) →
        exec .frameGapTimeout s = .next { s with link := { s.link with receiver := .hunt } })
    ∧ (∀ got, s.link.receiver = .frame got → got.head? = some (addressOf s.link.straps) →
        exec .frameGapTimeout s = .next { s with
          link := { s.link with receiver := .hunt },
          report := { s.report with counters := { s.report.counters with linkCrc := min 65535 (s.report.counters.linkCrc + 1) },
                                    flags := s.report.flags ||| 32#11 } }))
  ∧ (∀ (s : State) (bs : List Byte), s.powered = true → s.link.driver = true → exec (.linkFrame bs) s = .next s)
  ∧ ∀ (s : State) (kind : Byte) (p : List Byte), s.powered = true → s.link.receiver = .hunt → s.link.driver = false →
    p.length ≤ 1024 →
    (∀ v, s.link.service = some v → exec (.linkFrame (frameOf (addressOf s.link.straps) kind p)) s = .next { s with
        report := { s.report with counters := { s.report.counters with overrun := min 65535 (s.report.counters.overrun + 1) },
                                  flags := s.report.flags ||| 32#11 } })
    ∧ (∀ a, a ≠ addressOf s.link.straps → exec (.linkFrame (frameOf a kind p)) s = .next s)
    ∧ (∀ (a : Byte) (w : Word16), a ≠ addressOf s.link.straps → 1024 < w.toNat →
        exec (.linkFrame ([0xA5, a, kind] ++ bytes16 w)) s = .next s)
    ∧ (∀ body w, body = addressOf s.link.straps :: kind :: le16 p.length ++ p → w ≠ crc16 body →
        exec (.linkFrame (0xA5 :: body ++ bytes16 w)) s = .next { s with
          report := { s.report with counters := { s.report.counters with linkCrc := min 65535 (s.report.counters.linkCrc + 1) },
                                    flags := s.report.flags ||| 32#11 } })
    ∧ (∀ w : Word16, 1024 < w.toNat →
        exec (.linkFrame ([0xA5, addressOf s.link.straps, kind] ++ bytes16 w)) s = .next { s with
          report := { s.report with counters := { s.report.counters with linkCrc := min 65535 (s.report.counters.linkCrc + 1) },
                                    flags := s.report.flags ||| 32#11 } })

/-- R94, R157: the link port answers a kind that names no request with UNKNOWN_KIND, a payload of another length with BAD_LENGTH and
a PRESS (kind 17) with an event code above 4 with BAD_VALUE; it passes nothing on. That the port itself answers the PRESS is the
model's (log entry 12). -/
def Obligations.LinkPortExaminesRequests : Prop :=
  ∀ (s : State) (kind : Byte) (p : List Byte) (r : Reason), s.powered = true → s.link.receiver = .hunt → s.link.driver = false →
    s.link.service = none → p.length ≤ 1024 →
    (lengthOf kind.toNat = none ∧ r = .unknownKind ∨ (∃ n, lengthOf kind.toNat = some n ∧ p.length ≠ n) ∧ r = .badLength
        ∨ (kind = 17 ∧ ∃ code : Byte, p = [code] ∧ 5 ≤ code.toNat) ∧ r = .badValue) →
      exec (.linkFrame (frameOf (addressOf s.link.straps) kind p)) s =
        .next { s with link := { s.link with
          service := some { kind := kind, request := none },
          reply := some { kind := if kind.toNat < 128 then kind + 0x80 else 0xFF,
                          body := { status := .refused, reason := some r, fields := [] } },
          deadline := if s.link.interval = 0 then none else some (s.now + s.link.interval) } }

/-- R153, R156, R162: the last character of a reply takes the request out of service and the driver goes off; after the reply to
RESTART every block takes its RESTART values, which the chapters of the blocks give (02 to 08, 10). The log of sent frames is the
model's (log entry 19), and so is that REPLY_SENT with no reply changes nothing (log entry 1). -/
def Obligations.ReplySentEndsServiceAndRestarts : Prop :=
  ∀ s : State, s.powered = true →
    (s.link.reply = none → exec .replySent s = .next s)
    ∧ (∀ r, s.link.reply = some r → ¬ (r.kind = 0xA4 ∧ r.body.status = .ok) →
        exec .replySent s = .next { s with link := { s.link with
          service := none, reply := none, driver := false, tx := s.link.tx ++ [replyFrame s.link.straps r] } })
    ∧ (∀ r, s.link.reply = some r → r.kind = 0xA4 → r.body.status = .ok →
        ∃ t, exec .replySent s = .next t
          ∧ t.runout = { active := s.runout.active, deficitA := 0, deficitB := 0, travel := 0, mode := .distance,
                         pitch := s.store.card.line.scanPitch, nextPitch := none, remainder := 0, cuts := [] }
          ∧ t.scan.nextNumber = 0 ∧ (∀ i, t.scan.slots[(i : Fin 4)] = none) ∧ t.scan.skips = none ∧ t.scan.check = none
          ∧ (∀ h, t.scan.heads[(h : Fin 8)] =
              { state := if s.store.card.heads[h].enabled then .ok else .offline, miss := 0, sparse := 0, lastLine := none,
                check := .none })
          ∧ (∀ i, t.thermal[(i : Fin 4)] = ThermalRecord.fresh s.store.card.thermal s.now)
          ∧ (∀ i, t.engine.stale[(i : Fin 4)] = false) ∧ (∀ i f, t.engine.persistence[(i : Fin 4)][(f : Fin 32)] = Persistence.clear)
          ∧ (∀ i, t.engine.last[(i : Fin 4)] = none) ∧ t.engine.evaluation = none
          ∧ t.tracker.press = .idle
          ∧ (∀ i, t.tracker.strands[(i : Fin 4)] = Strand.fresh (if i.val < s.store.card.strands then .idle else .absent) 0)
          ∧ t.verdict.failsafe = s.verdict.failsafe ∧ (∀ i, t.verdict.last[(i : Fin 4)] = none)
          ∧ t.report = { s.report with latches := Vector.replicate 4 none, flags := s.report.flags &&& 1#11 }
          ∧ t.store = { s.store with pendingLimits := Vector.replicate 32 none }
          ∧ t.link = { s.link with receiver := .hunt, service := none, reply := none, driver := false,
                                   deadline := if s.link.interval = 0 then none else some (s.now + s.link.interval),
                                   tx := s.link.tx ++ [replyFrame s.link.straps r] }
          ∧ t.powered = true ∧ t.now = s.now)

/-- R34, R154: a LINE frame is 1,030 bytes long and is read back as the line that its head formed; any other frame, and one whose
check value does not match, is discarded and counted. Over "123456789" the check value is 29B1h. -/
def Obligations.LineFramesAreChecked : Prop :=
  crc16 [0x31, 0x32, 0x33, 0x34, 0x35, 0x36, 0x37, 0x38, 0x39] = 0x29B1
  ∧ (∀ l : HeadLine, l.head < 256 → l.trigger < 65536 → l.peak < 256 → l.codes.length = 512 → (∀ c ∈ l.codes, c < 65536) →
      (frameOfLine l).length = 1030 ∧ lineOfFrame (frameOfLine l) = some l)
    ∧ ∀ (s : State) (bs : List Byte), s.powered = true →
        (bs.length ≠ 1030 ∨ crc16 (bs.take 1028) ≠ word16At bs 1028) →
          exec (.lineFrame bs) s = .next { s with
            report := { s.report with counters := { s.report.counters with lineCrc := min 65535 (s.report.counters.lineCrc + 1) } } }

/-! ### Supply -/

/-- R20, R23, R35, R36, R39, R48, R53, R56, R75, R80, R88, R91, R92, R129, R130, R144, R150, R153, R160, R167, R172, R174, R176: POWER_ON
loads the boot bank or takes the empty card, and every block takes its power-on values, which the chapters of the blocks give (02
to 10). A boot bank gives the card whose canonical form its content is; of other bytes the card is the free value of log entry 8.
The clock starts at 0 (the model's: log entry 2). -/
def Obligations.PowerOnTakesBootBank : Prop :=
  ∀ (s : State) (straps : Straps) (high : Bool), ∃ t, exec (.powerOn straps high) s = .next t ∧ t.powered = true
    ∧ t.store.boot = s.store.boot ∧ t.store.engine = .idle ∧ t.store.lastOutcome = .none
    ∧ (∀ f, t.store.pendingLimits[(f : Fin 32)] = none)
    ∧ (∀ b, t.store.banks[(b : Fin 8)] =
        { s.store.banks[b] with lock := if s.store.banks[b].lock = .held then .unlocked else s.store.banks[b].lock })
    ∧ (s.store.boot = none → t.store.card = Card.empty ∧ t.store.digest = digestOf Card.empty ∧ t.report.flags = 1#11)
    ∧ (∀ b, s.store.boot = some b → s.store.banks[b].valid = false →
        t.store.card = Card.empty ∧ t.store.digest = digestOf Card.empty ∧ t.report.flags = 1#11)
    ∧ (∀ b, s.store.boot = some b → s.store.banks[b].valid = true → s.store.banks[b].intact = false →
        t.store.card = Card.empty ∧ t.store.digest = digestOf Card.empty ∧ t.report.flags = 65#11)
    ∧ (∀ b, s.store.boot = some b → s.store.banks[b].valid = true → s.store.banks[b].intact = true →
        t.store.digest = s.store.banks[b].digest ∧ t.report.flags = 1#11
          ∧ (∀ c, s.store.banks[b].content = .card c → t.store.card = c)
          ∧ ∀ c : Card, c.inRange = true → s.store.banks[b].content = .bytes (canonical c) → t.store.card = c)
    ∧ t.now = 0
    ∧ t.runout = { active := if high then .b else .a, deficitA := 0, deficitB := 0, travel := 0, mode := .distance,
                   pitch := t.store.card.line.scanPitch, nextPitch := none, remainder := 0, cuts := [] }
    ∧ t.scan.nextNumber = 0 ∧ (∀ i, t.scan.slots[(i : Fin 4)] = none) ∧ t.scan.skips = none ∧ t.scan.check = none
    ∧ (∀ h, t.scan.heads[(h : Fin 8)] =
        { state := if t.store.card.heads[h].enabled then .ok else .offline, miss := 0, sparse := 0, lastLine := none, check := .none })
    ∧ (∀ i, t.thermal[(i : Fin 4)] =
        { temperature := t.store.card.thermal.defaultTemp, band := plainBand t.store.card.thermal t.store.card.thermal.defaultTemp,
          fallback := false, timer := if t.store.card.thermal.hold = 0 then none else some (t.now + t.store.card.thermal.hold) })
    ∧ (∀ i, t.engine.stale[(i : Fin 4)] = false) ∧ (∀ i f, t.engine.persistence[(i : Fin 4)][(f : Fin 32)] = Persistence.clear)
    ∧ (∀ i, t.engine.last[(i : Fin 4)] = none) ∧ t.engine.evaluation = none
    ∧ t.tracker.press = .idle
    ∧ (∀ i, t.tracker.strands[(i : Fin 4)] = Strand.fresh (if i.val < t.store.card.strands then .idle else .absent) 0)
    ∧ t.verdict.failsafe = .normal ∧ (∀ i, t.verdict.last[(i : Fin 4)] = none)
    ∧ t.report.nextSequence = 0 ∧ t.report.queue = [] ∧ t.report.tally = Tally.zero ∧ t.report.mask = 0#11
    ∧ (∀ i, t.report.latches[(i : Fin 4)] = none) ∧ t.report.counters = Counters.zero
    ∧ t.link.straps = straps ∧ t.link.receiver = .hunt ∧ t.link.service = none ∧ t.link.reply = none
    ∧ t.link.driver = false ∧ t.link.interval = 0 ∧ t.link.deadline = none

/-- R151: when supply fails a store in flight is lost; a write of a request not yet answered is left as its old or its new value,
which the command's operand says (log entry 13); banks and boot setting are otherwise kept, also where the request in service
writes no non-volatile memory or is one that would be refused. -/
def Obligations.SupplyFailureLosesStore : Prop :=
  ∀ (s : State) (landed : Bool), s.powered = true → ∃ t, exec (.supplyFailure landed) s = .next t
    ∧ t.powered = false ∧ t.store.engine = .idle ∧ t.store.card = s.store.card
    ∧ (landed = false ∨ s.link.service = none ∨ s.link.reply ≠ none →
        t.store.banks = s.store.banks ∧ t.store.boot = s.store.boot)
    ∧ (∀ v b x, landed = true → s.link.reply = none → s.link.service = some v → v.request = some (.setBoot b) → bootOf b = some x →
        t.store.banks = s.store.banks ∧ t.store.boot = x)
    ∧ (∀ v b i, landed = true → s.link.reply = none → s.link.service = some v → v.request = some (.bankLock b 2) →
        indexOf 8 b = some i → s.store.isStoring i = false →
        t.store.boot = s.store.boot ∧ t.store.banks = setAt s.store.banks i { s.store.banks[i] with lock := .fixed })
    ∧ (∀ v b i, landed = true → s.link.reply = none → s.link.service = some v → v.request = some (.bankStore b) →
        indexOf 8 b = some i → s.store.banks[i].lock = .unlocked → s.store.engine = .idle →
        t.store.boot = s.store.boot ∧ t.store.banks = setAt s.store.banks i { s.store.banks[i] with
          valid := false, die := s.store.card.die, revision := s.store.card.revision, digest := s.store.digest,
          storeCount := min 65535 (s.store.banks[i].storeCount + 1) })
    ∧ ∀ v, landed = true → s.link.reply = none → s.link.service = some v →
        ((∀ b, v.request ≠ some (.setBoot b)) ∧ (∀ b, v.request ≠ some (.bankLock b 2)) ∧ (∀ b, v.request ≠ some (.bankStore b))
          ∨ (∃ b : Byte, v.request = some (.setBoot b) ∧ 8 ≤ b.toNat ∧ b ≠ 0xFF)
          ∨ (∃ b : Byte, v.request = some (.bankLock b 2) ∧ (8 ≤ b.toNat ∨ ∃ i, indexOf 8 b = some i ∧ s.store.isStoring i = true))
          ∨ (∃ b : Byte, v.request = some (.bankStore b) ∧ (8 ≤ b.toNat
              ∨ ∃ i, indexOf 8 b = some i ∧ (s.store.banks[i].lock ≠ .unlocked ∨ s.store.engine ≠ .idle)))) →
          t.store.banks = s.store.banks ∧ t.store.boot = s.store.boot

/-! ### Travel, triggers, cuts -/

/-- R16, R17, R23, R24: a forward count: ignored on the carriage that does not draw; paid off against the deficit; else the travel
grows by what the deficit leaves and what fits reaches the remainder where the generator works. Below the pitch no trigger fires;
from the pitch on the loop fires one trigger for each crossing, the first at the pitch in force, the others a next pitch apart where
one is present, each at the travel at which its crossing was reached, in order. -/
def Obligations.ForwardCountPaysDeficitThenDraws : Prop :=
  ∀ (s : State) (ch : Puller), s.powered = true →
    (s.runout.active ≠ ch → exec (.forwardCount ch) s = .next s)
    ∧ (s.runout.active = ch → scaleOf s.store.card.line ch ≤ s.runout.deficit ch →
        exec (.forwardCount ch) s = .next { s with
          runout := s.runout.withDeficit ch (s.runout.deficit ch - scaleOf s.store.card.line ch) })
    ∧ (s.runout.active = ch → s.runout.deficit ch < scaleOf s.store.card.line ch →
        ∀ grown, grown = min 1099511627775 (s.runout.travel + (scaleOf s.store.card.line ch - s.runout.deficit ch)) →
          (s.tracker.press = .idle ∨ s.runout.mode = .halt →
            exec (.forwardCount ch) s = .next { s with runout := { s.runout.withDeficit ch 0 with travel := grown } })
          ∧ (s.tracker.press ≠ .idle → s.runout.mode = .distance →
              ∀ drawn pitch next : Nat, drawn = s.runout.remainder + (grown - s.runout.travel) → pitch = s.runout.pitch →
                next = s.runout.nextPitch.getD pitch →
                (drawn < pitch → exec (.forwardCount ch) s = .next { s with runout :=
                  { s.runout.withDeficit ch 0 with travel := grown, remainder := drawn } })
                ∧ (s.TravelSound → pitch ≤ drawn →
                    exec (.forwardCount ch) s = .next
                      ((List.range ((drawn - pitch) / next + 1)).foldl
                        (fun t n => t.distanceTrigger (grown - drawn + pitch + n * next))
                        { s with runout := { s.runout.withDeficit ch 0 with
                            travel := grown, remainder := (drawn - pitch) % next, pitch := next, nextPitch := none } }))))

/-- R24, R33, R35, R37, R41, R45, R74: a distance trigger takes the lowest FREE slot; with a head enabled the slot is OPEN and
nothing else changes; with none it closes at once, and the oldest slot, where it is CLOSED and none is EVALUATING, is handed over.
So at a forward count that reaches the pitch once, whatever deficit it pays. Age, clock and the log of frames are the model's (log
entries 2, 17, 19). -/
def Obligations.DistanceTriggerTakesLowestFreeSlot : Prop :=
  (∀ (s : State) (travel : Nat) (i : Fin 4) (k : Slot) (taken : Slot → ScanAssembler),
    s.scan.slots[i] = none → (∀ j, j < i → s.scan.slots[j].isSome = true) →
    k = { phase := .waiting, number := s.scan.nextNumber,
          x := ((travel / 1000 : Nat) : Int) - (s.store.card.line.dHead : Int),
          manual := false, capture := Vector.ofFn fun j => s.thermal[j].capture,
          expected := headsInOrder.filter fun h => s.store.card.heads[h].enabled, lines := [],
          deadline := s.now + s.store.card.line.lineWait, skips := s.scan.skips } →
    (∀ k, taken k = { s.scan with
      nextNumber := if s.scan.nextNumber < 65534 then s.scan.nextNumber + 1 else 0,
      slots := setAt s.scan.slots i (some k), skips := none, headTx := s.scan.headTx ++ [triggerFrame s.scan.nextNumber] }) →
      ((∃ h, s.store.card.heads[(h : Fin 8)].enabled = true) → s.distanceTrigger travel = { s with scan := taken k })
      ∧ ((∀ h, s.store.card.heads[(h : Fin 8)].enabled = false) →
          ∀ a, a = taken { k with phase := .closed } →
            ((∃ j, a.holds (fun m => m.phase == .evaluating) j = true) → s.distanceTrigger travel = { s with scan := a })
            ∧ ((∀ j, a.holds (fun m => m.phase == .evaluating) j = false) →
              ∀ j m, a.oldest (fun _ => true) = some j → a.slots[j] = some m →
                (m.phase ≠ .closed → s.distanceTrigger travel = { s with scan := a })
                ∧ (m.phase = .closed →
                  ∀ todo, todo = (if m.manual then strandsInOrder.filter fun i => decide (i.val < s.store.card.strands)
                      else if s.engine.stale[j] then []
                      else strandsInOrder.filter fun i => decide (i.val < s.store.card.strands) && s.tracker.strands[i].active
                        && decide (0 ≤ m.x) && (match s.tracker.strands[i].tail with
                            | some t => decide (m.x < t)
                            | none => true)) →
                    s.distanceTrigger travel = { s with
                      scan := { a with slots := setAt a.slots j (some { m with phase := .evaluating }) },
                      engine := { s.engine with
                        evaluation := some { slot := j, card := s.store.card, track := !m.manual, todo := todo } } }))))
  ∧ ∀ (s : State) (ch : Puller) (i : Fin 4) (grown remainder : Nat), s.powered = true → s.runout.active = ch →
    s.runout.deficit ch < scaleOf s.store.card.line ch → 0 < s.runout.pitch → s.tracker.press ≠ .idle → s.runout.mode = .distance →
    grown = min 1099511627775 (s.runout.travel + (scaleOf s.store.card.line ch - s.runout.deficit ch)) →
    remainder = s.runout.remainder + (grown - s.runout.travel) → s.runout.pitch ≤ remainder →
    remainder - s.runout.pitch < s.runout.nextPitch.getD s.runout.pitch →
    s.scan.slots[i] = none → (∀ j, j < i → s.scan.slots[j].isSome = true) → (∃ h, s.store.card.heads[(h : Fin 8)].enabled = true) →
      exec (.forwardCount ch) s = .next { s with
        runout := { s.runout.withDeficit ch 0 with
          travel := grown, remainder := remainder - s.runout.pitch, pitch := s.runout.nextPitch.getD s.runout.pitch,
          nextPitch := none },
        scan := { s.scan with
          nextNumber := if s.scan.nextNumber < 65534 then s.scan.nextNumber + 1 else 0,
          slots := setAt s.scan.slots i (some
            { phase := .waiting, number := s.scan.nextNumber,
              x := (((grown - remainder + s.runout.pitch) / 1000 : Nat) : Int) - (s.store.card.line.dHead : Int),
              manual := false, capture := Vector.ofFn fun j => s.thermal[j].capture,
              expected := headsInOrder.filter fun h => s.store.card.heads[h].enabled, lines := [],
              deadline := s.now + s.store.card.line.lineWait, skips := s.scan.skips }),
          skips := none,
          headTx := s.scan.headTx ++ [triggerFrame s.scan.nextNumber] } }

/-- R24, R38, R39, R42, R44, R45, R74: a distance trigger that finds no FREE slot becomes a skip: no number, no frame, added to the
pending-skip record, counted and flagged; the oldest OPEN slot closes with its lines, its missing heads that are enabled are missed,
and every other OPEN slot stays; then the hand-over is tried, and nothing else changes. So at a forward count that reaches the pitch
once, whatever deficit it pays. Age is counted as log entry 17 says. -/
def Obligations.TriggerWithoutFreeSlotIsSkipped : Prop :=
  (∀ (s t : State) (travel : Nat) (x : Int), (∀ i, s.scan.slots[(i : Fin 4)].isSome = true) →
    x = ((travel / 1000 : Nat) : Int) - (s.store.card.line.dHead : Int) → t = s.distanceTrigger travel →
      t.scan.nextNumber = s.scan.nextNumber ∧ t.scan.headTx = s.scan.headTx ∧ t.scan.check = s.scan.check
      ∧ t.scan.skips = some (match s.scan.skips with
          | none => { count := 1, first := x }
          | some k => { count := min 65535 (k.count + 1), first := k.first })
      ∧ t.report.counters = { s.report.counters with skipped := min 65535 (s.report.counters.skipped + 1) }
      ∧ (∀ i k, s.scan.slots[(i : Fin 4)] = some k → ∃ p, t.scan.slots[i] = some { k with phase := p }
          ∧ (k.phase = .closed → p = .closed ∨ p = .evaluating) ∧ (k.phase = .evaluating → p = .evaluating)
          ∧ (k.phase = .waiting → (p = .waiting ↔ s.scan.oldest (fun k => k.phase == .waiting) ≠ some i)))
      ∧ (s.scan.oldest (fun k => k.phase == .waiting) = none →
          t.scan.slots = s.scan.slots ∧ t.scan.heads = s.scan.heads ∧ t.engine = s.engine
            ∧ t.report.flags = s.report.flags ||| 512#11)
      ∧ (∀ i k, s.scan.oldest (fun k => k.phase == .waiting) = some i → s.scan.slots[i] = some k →
          (∀ h, t.scan.heads[(h : Fin 8)] =
            if k.expected.contains h = true ∧ k.received h = false ∧ s.store.card.heads[h].enabled = true then
              { s.scan.heads[h] with miss := min 255 (s.scan.heads[h].miss + 1),
                                     state := if 8 ≤ min 255 (s.scan.heads[h].miss + 1) then .fault else s.scan.heads[h].state }
            else s.scan.heads[h])
          ∧ t.report.flags = s.report.flags ||| 512#11 |||
            (if (∃ h, k.expected.contains h = true ∧ k.received h = false ∧ s.store.card.heads[(h : Fin 8)].enabled = true
                ∧ 7 ≤ s.scan.heads[h].miss ∧ s.scan.heads[h].state ≠ .fault) then 2#11 else 0#11)
          ∧ State.HandsOver { s with
              scan := { s.scan with
                skips := t.scan.skips, heads := t.scan.heads, slots := setAt s.scan.slots i (some { k with phase := .closed }) },
              report := t.report } t)
      ∧ t.runout = s.runout ∧ t.store = s.store ∧ t.tracker = s.tracker ∧ t.verdict = s.verdict ∧ t.thermal = s.thermal
      ∧ t.link = s.link ∧ t.now = s.now ∧ t.powered = s.powered ∧ t.pending = s.pending
      ∧ t.report = { s.report with counters := t.report.counters, flags := t.report.flags })
  ∧ ∀ (s : State) (ch : Puller) (grown remainder : Nat), s.powered = true → s.runout.active = ch →
    s.runout.deficit ch < scaleOf s.store.card.line ch → 0 < s.runout.pitch → s.tracker.press ≠ .idle → s.runout.mode = .distance →
    grown = min 1099511627775 (s.runout.travel + (scaleOf s.store.card.line ch - s.runout.deficit ch)) →
    remainder = s.runout.remainder + (grown - s.runout.travel) → s.runout.pitch ≤ remainder →
    remainder - s.runout.pitch < s.runout.nextPitch.getD s.runout.pitch →
    (∀ i, s.scan.slots[(i : Fin 4)].isSome = true) →
      ∃ t, exec (.forwardCount ch) s = .next t
        ∧ t.runout = { s.runout.withDeficit ch 0 with
            travel := grown, remainder := remainder - s.runout.pitch, pitch := s.runout.nextPitch.getD s.runout.pitch,
            nextPitch := none }
        ∧ t = { s.distanceTrigger (grown - remainder + s.runout.pitch) with runout := t.runout }

/-- R16, R18, R19: a reverse count of the active puller grows its deficit, which saturates, and the other channel's is ignored; a
change of PULLER SELECT makes the other carriage active and clears its deficit. -/
def Obligations.ReverseCountsAndPullerSelectSetDeficits : Prop :=
  (∀ (s : State) (ch : Puller), s.powered = true →
    (s.runout.active ≠ ch → exec (.reverseCount ch) s = .next s)
    ∧ (s.runout.active = ch → exec (.reverseCount ch) s = .next { s with
        runout := s.runout.withDeficit ch (min 4294967295 (s.runout.deficit ch + scaleOf s.store.card.line ch)) }))
  ∧ ∀ s : State, s.powered = true →
    (s.runout.active = .a → exec .pullerSelectChange s = .next { s with runout := { s.runout with active := .b, deficitB := 0 } })
    ∧ (s.runout.active = .b → exec .pullerSelectChange s = .next { s with runout := { s.runout with active := .a, deficitA := 0 } })

/-- R29, R30: a cut edge held for 100 µs latches the travel, or with 4 entries queued is lost, counted and reported to the
tracker; a shorter one is ignored. The operand in µs and the waiting report are the model's (log entries 6, 20). -/
def Obligations.CutEdgeLatchesOrIsLost : Prop :=
  ∀ (s : State) (micros : Nat), s.powered = true →
    (micros < 100 → exec (.cutEdge micros) s = .next s)
    ∧ (100 ≤ micros → s.runout.cuts.length < 4 →
        exec (.cutEdge micros) s = .next { s with runout := { s.runout with cuts := s.runout.cuts ++ [s.runout.travel] } })
    ∧ (100 ≤ micros → 4 ≤ s.runout.cuts.length →
        exec (.cutEdge micros) s = .next { s with
          report := { s.report with counters := { s.report.counters with lostCut := min 65535 (s.report.counters.lostCut + 1) } },
          tracker := { s.tracker with reports := s.tracker.reports + 1 } })

/-- R30: a lost-cut report marks every strand in NOSE, RUNNING or TAILING and no other; nothing else of a strand changes. One
that arrived while an earlier cut was being taken marks the strands before the next cut is taken. How reports wait is the model's
(log entry 6). -/
def Obligations.LostCutReportMarksActiveStrands : Prop :=
  (∀ s : State, s.powered = true → s.runout.cuts ≠ [] → 0 < s.tracker.reportsDue →
    exec .takeCut s = exec .takeCut { s with tracker :=
      { s.tracker with reportsDue := 0, strands := Vector.ofFn fun i =>
          if s.tracker.strands[i].active then { s.tracker.strands[i] with cutLost := true } else s.tracker.strands[i] } })
  ∧ ∀ s : State, s.powered = true → ∃ t, exec .lostCutReport s = .next t
    ∧ (∀ i, t.tracker.strands[(i : Fin 4)] =
        if s.tracker.strands[i].state = .nose ∨ s.tracker.strands[i].state = .running ∨ s.tracker.strands[i].state = .tailing then
          { s.tracker.strands[i] with cutLost := true } else s.tracker.strands[i])
    ∧ t.tracker.press = s.tracker.press ∧ t.runout = s.runout ∧ t.scan = s.scan ∧ t.thermal = s.thermal ∧ t.engine = s.engine
    ∧ t.verdict = s.verdict ∧ t.report = s.report ∧ t.store = s.store ∧ t.link = s.link

/-- R31, R93, R101, R115 to R118, R121, R128, R132: a cut taken with no lost-cut report due: what each strand, its last verdict, the
report unit, the press, the card and the queue become; and how a strand advances and ends, a record joins the queue or the tally,
and the pending limits are applied. -/
def Obligations.TakeCutFormsLengths : Prop :=
  (∀ (s : State) (travel : Nat) (rest : List Nat) (c : Int), s.powered = true → s.runout.cuts = travel :: rest →
    s.tracker.reportsDue = 0 → c = ((travel / 1000 : Nat) : Int) - (s.store.card.line.dSaw : Int) →
      ∃ t, exec .takeCut s = .next t ∧ t.runout = { s.runout with cuts := rest }
        ∧ (∀ i, s.tracker.strands[(i : Fin 4)].takesCut c = false →
            t.tracker.strands[i] = s.tracker.strands[i] ∧ t.verdict.last[i] = s.verdict.last[i])
        ∧ (∀ i, s.tracker.strands[(i : Fin 4)].state = .running → s.tracker.strands[i].lastCut < c →
            t.tracker.strands[i] = s.tracker.strands[i].advance s.store.card c
              ∧ t.verdict.last[i] = some (lengthRecord s.store.card s.store.digest s.thermal[i] s.verdict.failsafe .cut i
                  s.tracker.strands[i] c).verdict)
        ∧ (∀ i tail, s.tracker.strands[(i : Fin 4)].state = .tailing → s.tracker.strands[i].tail = some tail →
            s.tracker.strands[i].lastCut < c → c < tail →
            t.tracker.strands[i] = s.tracker.strands[i].advance s.store.card c
              ∧ t.verdict.last[i] = some (lengthRecord s.store.card s.store.digest s.thermal[i] s.verdict.failsafe .cut i
                  s.tracker.strands[i] c).verdict)
        ∧ (∀ i tail, s.tracker.strands[(i : Fin 4)].state = .tailing → s.tracker.strands[i].tail = some tail →
            s.tracker.strands[i].lastCut < c → tail ≤ c →
            (s.tracker.strands[i].lastCut < tail →
              t.tracker.strands[i] = (s.tracker.strands[i].advance s.store.card tail).ended
                ∧ t.verdict.last[i] = some (lengthRecord s.store.card s.store.digest s.thermal[i] s.verdict.failsafe .cut i
                    s.tracker.strands[i] tail).verdict)
            ∧ (tail ≤ s.tracker.strands[i].lastCut →
              t.tracker.strands[i] = s.tracker.strands[i].ended ∧ t.verdict.last[i] = s.verdict.last[i]))
        ∧ t.report = (strandsInOrder.filter fun i => s.tracker.strands[i].formsLength c).foldl
            (fun u i => u.take (lengthRecord s.store.card s.store.digest s.thermal[i] s.verdict.failsafe .cut i s.tracker.strands[i]
              (cutUpper s.tracker.strands[i] c))) s.report
        ∧ ((∃ i, s.tracker.strands[(i : Fin 4)].formsLength c = true) → t.store = s.store.applyPending)
        ∧ ((∃ i, s.tracker.strands[(i : Fin 4)].active = true) → (∀ i, t.tracker.strands[(i : Fin 4)].active = false) →
            t.tracker.press = .idle ∧ t.store = s.store.applyPending)
        ∧ ((∀ i, s.tracker.strands[(i : Fin 4)].formsLength c = false) → (∃ i, t.tracker.strands[(i : Fin 4)].active = true) →
            t.store = s.store)
        ∧ ((∀ i, s.tracker.strands[(i : Fin 4)].takesCut c = false) → t.store = s.store ∧ t.report = s.report)
        ∧ ((∃ i, t.tracker.strands[(i : Fin 4)].active = true) → t.tracker.press = s.tracker.press)
        ∧ t.scan = s.scan ∧ t.thermal = s.thermal ∧ t.engine = s.engine ∧ t.link = s.link ∧ t.verdict.failsafe = s.verdict.failsafe)
  ∧ (∀ (st : Strand) (c : Int),
      (st.takesCut c = true ↔ (st.state = .running ∨ st.state = .tailing) ∧ st.lastCut < c)
      ∧ (st.formsLength c = true ↔ (st.state = .running ∨ st.state = .tailing ∧ ∀ tail, st.tail = some tail → st.lastCut < tail)
          ∧ st.lastCut < c)
      ∧ (st.state = .running → cutUpper st c = c)
      ∧ ∀ tail, st.state = .tailing → st.tail = some tail → cutUpper st c = min tail c)
  ∧ (∀ (st : Strand) (c : Card) (d : Word32) (th : ThermalRecord) (fs : Failsafe) (o : Origin) (i : Fin 4) (upper : Int),
      st.advance c upper = { st with
        lastCut := upper, lengthIndex := min 65535 (st.lengthIndex + 1),
        lowerBillet := (lengthRecord c d th fs o i st upper).lastBillet, tempSum := 0, scanCount := 0, fallbackMark := false,
        extremes := Vector.replicate 32 { least := none, greatest := none, missing := 0 }, cutLost := false,
        dimensions := Vector.ofFn fun f => st.dimensions[f].map fun o => { o with start := max o.start upper },
        blinds := Vector.ofFn fun f => st.blinds[f].map fun o => { o with start := max o.start upper },
        closed := (st.closed.filter fun z => decide (upper < z.finish ∨ upper ≤ z.start)).map fun z =>
          { z with start := max z.start upper } }
      ∧ st.ended = { st with
          state := .ended, dimensions := Vector.replicate 32 none, blinds := Vector.replicate 32 none, closed := [], cutLost := false })
  ∧ (∀ (u : ReportUnit) (r : LengthRecord),
      (u.queue.length < 64 → u.take r = { u with
        queue := u.queue ++ [{ r with sequence := u.nextSequence }], nextSequence := (u.nextSequence + 1) % 65536 })
      ∧ (64 ≤ u.queue.length → u.take r = { u with
          tally := { lengths := min 4294967295 (u.tally.lengths + 1),
                     rejects := min 4294967295 (u.tally.rejects + (if r.verdict = .reject then 1 else 0)),
                     millis := min 4294967295 (u.tally.millis + r.hot.toNat) },
          flags := u.flags ||| 16#11 }))
  ∧ ∀ x : CardStore,
      ((∀ f, x.pendingLimits[(f : Fin 32)] = none) → x.applyPending = x)
      ∧ ((∃ f, x.pendingLimits[(f : Fin 32)] ≠ none) →
          ∀ c : Card, c = { x.card with features := Vector.ofFn fun f => match x.card.features[f], x.pendingLimits[f] with
            | some y, some l => some { y with limits := l }
            | y, _ => y } →
            x.applyPending = { x with card := c, digest := digestOf c, pendingLimits := Vector.replicate 32 none })

/-- R25: SET_TRIGGER sets the mode alone and answers OK with the mode, the pitch in force, the next pitch and the remainder (8
bytes: log entry 11); another code is refused. -/
def Obligations.SetTriggerSetsModeAlone : Prop :=
  ∀ (s : State) (code : Byte), s.serves (.setTrigger code) →
    (2 ≤ code.toNat → s.refuses (.setTrigger code) .badValue)
    ∧ (∀ m, (code = 0 ∧ m = TriggerMode.distance ∨ code = 1 ∧ m = TriggerMode.halt) →
        exec (.setTrigger code) s = .next (State.answered { s with runout := { s.runout with mode := m } } (.setTrigger code)
          { status := .ok, reason := none,
            fields := code :: le32 s.runout.pitch ++ (match s.runout.nextPitch with
                | some p => le32 p
                | none => [0xFF, 0xFF, 0xFF, 0xFF]) ++ le64 s.runout.remainder }))

/-- R27, R35, R37, R41, R45, R74: TRIGGER_ONCE by the first case that applies; carried out, it takes the lowest FREE slot as a manual
slot at the present travel and leaves the generator and the pending-skip record. With no head enabled the slot closes at once and the
hand-over is tried. Age, the clock and the log of frames are the model's (log entries 2, 17, 19). -/
def Obligations.TriggerOnceFirstCaseThatApplies : Prop :=
  ∀ s : State, s.serves .triggerOnce →
    (s.tracker.press = .running ∨ s.tracker.press = .ending → s.refuses .triggerOnce .state)
    ∧ (s.tracker.press = .idle ∨ s.tracker.press = .stopped → s.scan.check.isSome = true → s.refuses .triggerOnce .busy)
    ∧ (s.tracker.press = .idle ∨ s.tracker.press = .stopped → s.scan.check = none → (∀ i, s.scan.slots[(i : Fin 4)].isSome = true) →
        s.refuses .triggerOnce .busy)
    ∧ (s.tracker.press = .idle ∨ s.tracker.press = .stopped → s.scan.check = none →
        ∀ i, s.scan.slots[(i : Fin 4)] = none → (∀ j, j < i → s.scan.slots[j].isSome = true) →
          (∃ h, s.store.card.heads[(h : Fin 8)].enabled = true) →
            exec .triggerOnce s = .next (State.answered { s with scan := { s.scan with
                nextNumber := if s.scan.nextNumber < 65534 then s.scan.nextNumber + 1 else 0,
                slots := setAt s.scan.slots i (some
                  { phase := .waiting, number := s.scan.nextNumber,
                    x := ((s.runout.travel / 1000 : Nat) : Int) - (s.store.card.line.dHead : Int), manual := true,
                    capture := Vector.ofFn fun j => s.thermal[j].capture,
                    expected := headsInOrder.filter fun h => s.store.card.heads[h].enabled, lines := [],
                    deadline := s.now + s.store.card.line.lineWait, skips := none }),
                headTx := s.scan.headTx ++ [triggerFrame s.scan.nextNumber] } } .triggerOnce
              { status := .ok, reason := none, fields := le16 s.scan.nextNumber }))
    ∧ (s.tracker.press = .idle ∨ s.tracker.press = .stopped → s.scan.check = none →
        ∀ i, s.scan.slots[(i : Fin 4)] = none → (∀ j, j < i → s.scan.slots[j].isSome = true) →
          (∀ h, s.store.card.heads[(h : Fin 8)].enabled = false) →
            ∃ t, exec .triggerOnce s = .next (State.answered t .triggerOnce
                { status := .ok, reason := none, fields := le16 s.scan.nextNumber })
              ∧ State.HandsOver { s with scan := { s.scan with
                  nextNumber := if s.scan.nextNumber < 65534 then s.scan.nextNumber + 1 else 0,
                  slots := setAt s.scan.slots i (some
                    { phase := .closed, number := s.scan.nextNumber,
                      x := ((s.runout.travel / 1000 : Nat) : Int) - (s.store.card.line.dHead : Int), manual := true,
                      capture := Vector.ofFn fun j => s.thermal[j].capture, expected := [], lines := [],
                      deadline := s.now + s.store.card.line.lineWait, skips := none }),
                  headTx := s.scan.headTx ++ [triggerFrame s.scan.nextNumber] } } t)

/-! ### Heads and slots -/

/-- R40, R41, R45, R49, R74: a trigger line, by the first case that applies: late, duplicate, or accepted into its OPEN slot with its
head's entry updated. With the last line expected the slot closes and the hand-over is tried; nothing else changes. A head number above
7 makes a line late, and age is counted, as log entries 25 and 17 say (the model's). -/
def Obligations.TriggerLineFirstCaseThatApplies : Prop :=
  (∀ (s : State) (l : HeadLine) (bs : List Byte), s.powered = true → lineOfFrame bs = some l → 8 ≤ l.head → l.trigger < 65535 →
    exec (.lineFrame bs) s = .next { s with
      report := { s.report with counters := { s.report.counters with lateLine := min 65535 (s.report.counters.lateLine + 1) },
                                flags := s.report.flags ||| 256#11 } })
  ∧ ∀ (s : State) (l : Line) (n : Nat) (bs : List Byte), s.powered = true →
    lineOfFrame bs = some { head := l.head.val, trigger := n, peak := l.peak, codes := l.codes } → n < 65535 →
    (s.store.card.heads[l.head].enabled = false ∨ s.scan.openWith n = none
        ∨ (∃ i k, s.scan.openWith n = some i ∧ s.scan.slots[i] = some k ∧ k.expected.contains l.head = false) →
      exec (.lineFrame bs) s = .next { s with
        report := { s.report with counters := { s.report.counters with lateLine := min 65535 (s.report.counters.lateLine + 1) },
                                  flags := s.report.flags ||| 256#11 } })
    ∧ (∀ i k, s.store.card.heads[l.head].enabled = true → s.scan.openWith n = some i → s.scan.slots[i] = some k →
        k.expected.contains l.head = true → k.received l.head = true →
        exec (.lineFrame bs) s = .next { s with
          report := { s.report with counters := { s.report.counters with duplicate := min 65535 (s.report.counters.duplicate + 1) } } })
    ∧ (∀ i k sparse, s.store.card.heads[l.head].enabled = true → s.scan.openWith n = some i → s.scan.slots[i] = some k →
        k.expected.contains l.head = true → k.received l.head = false →
        sparse = (if s.store.card.heads[l.head].minPoints ≤ l.codes.countP validCode then 0
                  else min 255 (s.scan.heads[l.head].sparse + 1)) →
        ∀ held stored, held = { k with lines := k.lines ++ [l] } →
          stored = { s with
            scan := { s.scan with
              slots := setAt s.scan.slots i (some held),
              heads := setAt s.scan.heads l.head
                { state := if 8 ≤ sparse then .blinded else .ok, miss := 0, sparse := sparse,
                  lastLine := some { valid := l.codes.countP validCode, peak := l.peak }, check := s.scan.heads[l.head].check } },
            report := if 8 ≤ sparse ∧ s.scan.heads[l.head].state ≠ .blinded then
              { s.report with flags := s.report.flags ||| 2#11 } else s.report } →
          ((∃ h, k.expected.contains h = true ∧ h ≠ l.head ∧ k.received h = false) → exec (.lineFrame bs) s = .next stored)
          ∧ ((∀ h, k.expected.contains h = true → h = l.head ∨ k.received h = true) →
              ∃ t, exec (.lineFrame bs) s = .next t
                ∧ State.HandsOver { stored with
                    scan := { stored.scan with slots := setAt s.scan.slots i (some { held with phase := .closed }) } } t))

/-- R52, R53: a check line is late, a duplicate, or gives its head's result by the limits of the head's record; the last pending
result completes the check. A head number above 7 makes a line late (the model's: log entry 25). -/
def Obligations.CheckLineGivesTheHeadsResult : Prop :=
  (∀ (s : State) (l : HeadLine) (bs : List Byte), s.powered = true → lineOfFrame bs = some l → 8 ≤ l.head → l.trigger = 65535 →
    exec (.lineFrame bs) s = .next { s with
      report := { s.report with counters := { s.report.counters with lateLine := min 65535 (s.report.counters.lateLine + 1) },
                                flags := s.report.flags ||| 256#11 } })
  ∧ ∀ (s : State) (l : Line) (bs : List Byte), s.powered = true →
    lineOfFrame bs = some { head := l.head.val, trigger := 65535, peak := l.peak, codes := l.codes } →
    (s.scan.check = none ∨ (∃ c, s.scan.check = some c ∧ c.mask.getLsbD l.head.val = false) →
      exec (.lineFrame bs) s = .next { s with
        report := { s.report with counters := { s.report.counters with lateLine := min 65535 (s.report.counters.lateLine + 1) },
                                  flags := s.report.flags ||| 256#11 } })
    ∧ (∀ c, s.scan.check = some c → c.mask.getLsbD l.head.val = true → s.scan.heads[l.head].check ≠ .pending →
        exec (.lineFrame bs) s = .next { s with
          report := { s.report with counters := { s.report.counters with duplicate := min 65535 (s.report.counters.duplicate + 1) } } })
    ∧ (∀ c r, s.scan.check = some c → c.mask.getLsbD l.head.val = true → s.scan.heads[l.head].check = .pending →
        r = (if l.peak < s.store.card.heads[l.head].dark then CheckResult.dark
             else if s.store.card.heads[l.head].bright < l.peak then .bright
             else if l.codes.countP validCode < s.store.card.heads[l.head].minPoints then .sparse else .pass) →
        ((∃ h, h ≠ l.head ∧ s.scan.heads[(h : Fin 8)].check = .pending) →
          exec (.lineFrame bs) s = .next { s with
            scan := { s.scan with heads := setAt s.scan.heads l.head { s.scan.heads[l.head] with check := r } } })
        ∧ ((∀ h, h ≠ l.head → s.scan.heads[(h : Fin 8)].check ≠ .pending) →
          exec (.lineFrame bs) s = .next { s with
            scan := { s.scan with heads := setAt s.scan.heads l.head { s.scan.heads[l.head] with check := r }, check := none },
            report := { s.report with flags := s.report.flags ||| 1024#11 } }))

/-- R42, R44, R45, R74: the deadline of an OPEN slot closes it with its lines; every expected head without a line that is enabled now is
missed; then the hand-over is tried, and nothing else changes; any other slot is left. The clock is then at the deadline, and age is
counted as log entry 17 says (the model's: log entries 2, 17). -/
def Obligations.LineWaitExpiryClosesSlot : Prop :=
  ∀ (s : State) (i : Fin 4), s.powered = true →
    ((∀ k, s.scan.slots[i] = some k → k.phase ≠ .waiting) → exec (.lineWaitExpiry i) s = .next s)
    ∧ ∀ (k : Slot) (heads : Vector HeadEntry 8), s.scan.slots[i] = some k → k.phase = .waiting →
        (∀ h, heads[(h : Fin 8)] =
          if k.expected.contains h = true ∧ k.received h = false ∧ s.store.card.heads[h].enabled = true then
            { s.scan.heads[h] with miss := min 255 (s.scan.heads[h].miss + 1),
                                   state := if 8 ≤ min 255 (s.scan.heads[h].miss + 1) then .fault else s.scan.heads[h].state }
          else s.scan.heads[h]) →
        ∃ t, exec (.lineWaitExpiry i) s = .next t
          ∧ State.HandsOver { s with
              now := max s.now k.deadline,
              scan := { s.scan with slots := setAt s.scan.slots i (some { k with phase := .closed }), heads := heads },
              report := { s.report with flags := s.report.flags |||
                (if (∃ h, k.expected.contains h = true ∧ k.received h = false ∧ s.store.card.heads[(h : Fin 8)].enabled = true
                    ∧ 7 ≤ s.scan.heads[h].miss ∧ s.scan.heads[h].state ≠ .fault) then 2#11 else 0#11) } } t

/-- R51, R53: HEAD_CHECK by the first case that applies; carried out, it sets the results, sends the CHECK frames and clears
CHECK_DONE; the 200 ms limit completes a check in flight. The gate of a request, the clock, the log of frames with the order of the
CHECK frames in it, and that an expiry with no check in flight changes nothing are the model's (log entries 1, 2, 4, 19). -/
def Obligations.HeadCheckBeginsAndRunsOut : Prop :=
  (∀ (s : State) (mask exposure : Byte), s.serves (.headCheck mask exposure) →
    (mask = 0 ∨ 3 < exposure.toNat → s.refuses (.headCheck mask exposure) .badValue)
    ∧ (mask ≠ 0 → exposure.toNat ≤ 3 → s.tracker.press ≠ .idle → s.refuses (.headCheck mask exposure) .state)
    ∧ (mask ≠ 0 → exposure.toNat ≤ 3 → s.tracker.press = .idle → s.scan.check.isSome = true →
        s.refuses (.headCheck mask exposure) .busy)
    ∧ (mask ≠ 0 → exposure.toNat ≤ 3 → s.tracker.press = .idle → s.scan.check = none →
        exec (.headCheck mask exposure) s = .next (State.answered { s with
          scan := { s.scan with
            heads := Vector.ofFn fun h => { s.scan.heads[h] with check := if mask.getLsbD h.val then .pending else .none },
            check := some { mask := mask, deadline := s.now + 200 },
            headTx := s.scan.headTx ++ (headsInOrder.filter fun h => mask.getLsbD h.val).map fun h => checkFrame h exposure },
          report := { s.report with flags := s.report.flags &&& 1023#11 } } (.headCheck mask exposure)
          { status := .ok, reason := none, fields := [] })))
  ∧ ∀ s : State, s.powered = true →
    (s.scan.check = none → exec .checkLimitExpiry s = .next s)
    ∧ ∀ c, s.scan.check = some c → exec .checkLimitExpiry s = .next { s with
        now := max s.now c.deadline,
        scan := { s.scan with
          heads := Vector.ofFn fun h =>
            if s.scan.heads[h].check = .pending then { s.scan.heads[h] with check := .noLine } else s.scan.heads[h],
          check := none },
        report := { s.report with flags := s.report.flags ||| 1024#11 } }

/-- R54, R62, R113, R136, R141, R152, R163 to R166, R168, R176: the readouts answer OK and change nothing but the reply; HEAD_INFO clears
CHECK_DONE as well. Every field of the STATUS payload stands at its offset of R164, status and reason before it; and so the fields of
IDENT, BANK_INFO, HEAD_INFO, TRACK_READ, REPORT_READ, READ_COUNTERS and every section of READ_CARD, a head record, a feature record, a
limits block, a length record, a trend entry and a zone entry, at the offsets of R165 and R166 or in the order their rules name them.
Numbers are coded as R163 has them. Where a rule names fields only, their order and the presence byte are log entry 10. -/
def Obligations.ReadoutsAnswerAndChangeNothing : Prop :=
  (∀ s : State, (s.serves .status → exec .status s = .next (s.answered .status { status := .ok, reason := none, fields := statusFields s }))
    ∧ (s.serves .ident → exec .ident s = .next (s.answered .ident { status := .ok, reason := none, fields := identFields s.link.straps }))
    ∧ (s.serves .bankInfo →
        exec .bankInfo s = .next (s.answered .bankInfo { status := .ok, reason := none, fields := bankInfoFields s.store }))
    ∧ (s.serves .reportRead →
        exec .reportRead s = .next (s.answered .reportRead { status := .ok, reason := none, fields := reportFields s.report }))
    ∧ (s.serves .readCounters →
        exec .readCounters s = .next (s.answered .readCounters { status := .ok, reason := none, fields := counterFields s.report.counters }))
    ∧ (s.serves .headInfo → exec .headInfo s = .next
        (State.answered { s with report := { s.report with flags := s.report.flags &&& 1023#11 } } .headInfo
          { status := .ok, reason := none, fields := headInfoFields s })))
  ∧ (∀ (s : State) (part index : Byte), s.serves (.readCard part index) →
      (cardFields s.store part index = none → s.refuses (.readCard part index) .badValue)
      ∧ (cardFields s.store part index = none ↔
          7 ≤ part.toNat ∨ ((part = 1 ∨ part = 2) ∧ 8 ≤ index.toNat) ∨ (part = 3 ∧ 32 ≤ index.toNat))
      ∧ ∀ bs, cardFields s.store part index = some bs → exec (.readCard part index) s = .next
          (s.answered (.readCard part index) { status := .ok, reason := none, fields := bytes32 s.store.digest ++ bs }))
  ∧ ∀ (s : State) (strand start : Byte), s.serves (.trackRead strand start) →
      (4 ≤ strand.toNat ∨ 48 ≤ start.toNat → s.refuses (.trackRead strand start) .badValue)
      ∧ ∀ i : Fin 4, strand.toNat = i.val → start.toNat ≤ 47 → exec (.trackRead strand start) s = .next
          (s.answered (.trackRead strand start)
            { status := .ok, reason := none, fields := trackFields s.tracker.strands[i] start.toNat })
  ∧ ((∀ n, (le16 n).length = 2 ∧ numberAt (le16 n) 0 2 = n % 65536) ∧ (∀ n, (le32 n).length = 4 ∧ numberAt (le32 n) 0 4 = n % 4294967296)
      ∧ (∀ n, (le64 n).length = 8 ∧ numberAt (le64 n) 0 8 = n % 18446744073709551616)
      ∧ ∀ i, (leInt i).length = 4 ∧ numberAt (leInt i) 0 4 = signed32 i)
  ∧ (∀ (c : Counters) (p : List Byte), p = counterFields c → p.length = 18
      ∧ ∀ n, n < 9 → numberAt p (2 * n) 2 = [c.linkCrc, c.overrun, c.lineCrc, c.duplicate, c.lateLine, c.skipped, c.lateResult,
          c.coarsening, c.lostCut].getD n 0 % 65536)
  ∧ (∀ (x : CardStore) (index : Byte),
      (∃ p, cardFields x 0 index = some p ∧ p.length = 8 ∧ numberAt p 0 4 = x.card.die % 4294967296
        ∧ numberAt p 4 2 = x.card.revision % 65536 ∧ numberAt p 6 1 = x.card.alloy % 256 ∧ numberAt p 7 1 = x.card.strands % 256)
      ∧ (∀ i : Fin 8, index.toNat = i.val → cardFields x 1 index = some (headFields x.card.heads[i])
          ∧ ∃ p, cardFields x 2 index = some p ∧ p.length = 68
            ∧ ∀ n : Fin 17, numberAt p (4 * n.val) 4 = signed32 x.card.curves[i][n])
      ∧ (∀ i : Fin 32, index.toNat = i.val → (x.card.features[i] = none → cardFields x 3 index = some [0])
          ∧ ∀ f, x.card.features[i] = some f → cardFields x 3 index = some (1 :: featureFields f))
      ∧ cardFields x 4 index = some (thermalSectionFields x.card.thermal) ∧ cardFields x 5 index = some (lineSectionFields x.card.line)
      ∧ ∃ n : Byte, n.toNat = featuresInOrder.countP (fun f => x.pendingLimits[f].isSome)
        ∧ cardFields x 6 index = some (n :: featuresInOrder.flatMap fun f => match x.pendingLimits[f] with
            | some l => byte f.val :: limitsFields l
            | none => []))
  ∧ (∀ (h : HeadRecord) (p : List Byte), p = headFields h →
      p.length = 22 ∧ numberAt p 0 1 = h.enabled.toNat ∧ numberAt p 1 1 = h.strand.val ∧ numberAt p 2 1 = h.position.val
      ∧ numberAt p 3 1 = h.mirrorColumn.toNat ∧ numberAt p 4 1 = h.mirrorRange.toNat ∧ numberAt p 5 1 = h.swap.toNat
      ∧ numberAt p 6 2 = h.c0 % 65536 ∧ numberAt p 8 2 = h.pitch % 65536 ∧ numberAt p 10 4 = signed32 h.offU
      ∧ numberAt p 14 4 = signed32 h.offV ∧ numberAt p 18 2 = h.minPoints % 65536 ∧ numberAt p 20 1 = h.dark % 256
      ∧ numberAt p 21 1 = h.bright % 256)
  ∧ (∀ (f : Feature) (p : List Byte), p = featureFields f →
      p.length = 31 ∧ numberAt p 0 2 = f.featureId % 65536 ∧ numberAt p 2 1 = [FeatureKind.span, .level, .gap, .flat].idxOf f.kind
      ∧ numberAt p 3 1 = f.placeA.position.val ∧ numberAt p 4 2 = f.placeA.window.first % 65536
      ∧ numberAt p 6 2 = f.placeA.window.last % 65536
      ∧ (f.placeB = none → numberAt p 8 1 = 255 ∧ numberAt p 9 2 = 65535 ∧ numberAt p 11 2 = 65535)
      ∧ (∀ b, f.placeB = some b → numberAt p 8 1 = b.position.val ∧ numberAt p 9 2 = b.window.first % 65536
          ∧ numberAt p 11 2 = b.window.last % 65536)
      ∧ numberAt p 13 2 = f.minPoints % 65536 ∧ numberAt p 15 1 = f.trended.toNat ∧ p.drop 16 = limitsFields f.limits)
  ∧ (∀ (l : Limits) (p : List Byte), p = limitsFields l →
      p.length = 15 ∧ numberAt p 0 4 = signed32 l.nominal ∧ numberAt p 4 4 = signed32 l.lower ∧ numberAt p 8 4 = signed32 l.upper
      ∧ numberAt p 12 1 = l.kOpen % 256 ∧ numberAt p 13 1 = l.kClose % 256
      ∧ numberAt p 14 1 = [Grade.minor, .major].idxOf l.severity)
  ∧ (∀ (t : ThermalSection) (p : List Byte), p = thermalSectionFields t →
      p.length = 20 ∧ ∀ n, n < 10 → numberAt p (2 * n) 2
        = [t.u0, t.u1, t.u2, t.k0, t.k1, t.k2, t.k3, t.hysteresis, t.defaultTemp, t.hold].getD n 0 % 65536)
  ∧ (∀ (l : LineSection) (p : List Byte), p = lineSectionFields l →
      p.length = 54
      ∧ (∀ n, n < 8 → numberAt p (4 * n) 4
          = [l.dHead, l.dSaw, l.scanPitch, l.scaleA, l.scaleB, l.weldLead, l.weldLength, l.stopMargin].getD n 0 % 4294967296)
      ∧ numberAt p 32 1 = [Grade.minor, .major].idxOf l.stopSeverity
      ∧ (∀ n, n < 4 → numberAt p (33 + 4 * n) 4 = [l.noseCrop, l.tailCrop, l.minLength, l.mergeGap].getD n 0 % 4294967296)
      ∧ numberAt p 49 2 = l.blindLimit % 65536 ∧ numberAt p 51 1 = [Grade.minor, .major].idxOf l.blindSeverity
      ∧ numberAt p 52 2 = l.lineWait % 65536)
  ∧ (∀ (s : State) (a b : Byte) (p : List Byte), p = a :: b :: statusFields s →
      p.length = 66
      ∧ numberAt p 2 8 = s.runout.travel % 18446744073709551616 ∧ numberAt p 10 1 = [Puller.a, .b].idxOf s.runout.active
      ∧ numberAt p 11 1 = s.runout.cuts.length % 256 ∧ numberAt p 12 1 = [Press.idle, .running, .stopped, .ending].idxOf s.tracker.press
      ∧ (∀ i : Fin 4, numberAt p (13 + i.val) 1
            = [StrandState.absent, .idle, .nose, .running, .tailing, .ended].idxOf s.tracker.strands[i].state
          ∧ numberAt p (17 + 4 * i.val) 2 = s.thermal[i].temperature % 65536 ∧ numberAt p (19 + 4 * i.val) 1 = s.thermal[i].band.val
          ∧ numberAt p (20 + 4 * i.val) 1 = s.thermal[i].fallback.toNat
          ∧ numberAt p (46 + i.val) 1 = [none, some Verdict.accept, some .reject, some .nose, some .tail, some .short].idxOf s.verdict.last[i])
      ∧ (∀ h : Fin 8, numberAt p (33 + h.val) 1 = [HeadState.offline, .ok, .fault, .blinded].idxOf s.scan.heads[h].state)
      ∧ numberAt p 41 1 = slotsInOrder.countP (fun i => s.scan.slots[i].isSome)
      ∧ numberAt p 42 2 = ((s.scan.skips.map Skips.count).getD 0) % 65536 ∧ numberAt p 44 1 = s.scan.check.isSome.toNat
      ∧ numberAt p 45 1 = [Failsafe.normal, .failsafe].idxOf s.verdict.failsafe
      ∧ (∀ n, (numberAt p 50 1).testBit n = true ↔ ∃ i : Fin 4, i.val = n ∧ s.rejectLine i = true)
      ∧ numberAt p 51 1 = s.alarmLine.toNat ∧ numberAt p 52 4 = s.store.digest.toNat ∧ numberAt p 56 1 = readiness s.store.card
      ∧ numberAt p 57 1 = featuresInOrder.countP (fun f => s.store.pendingLimits[f].isSome)
      ∧ numberAt p 58 1 = (s.store.boot.map Fin.val).getD 255
      ∧ (s.store.engine = .idle → numberAt p 59 1 = 0 ∧ numberAt p 60 1 = 255)
      ∧ (∀ j, s.store.engine = .storing j → numberAt p 59 1 = 1 ∧ numberAt p 60 1 = j.bank.val)
      ∧ (s.store.lastOutcome = .none → numberAt p 61 1 = 0 ∧ numberAt p 62 1 = 255)
      ∧ (∀ i, s.store.lastOutcome = .done i → numberAt p 61 1 = 1 ∧ numberAt p 62 1 = i.val)
      ∧ (∀ i, s.store.lastOutcome = .fail i → numberAt p 61 1 = 2 ∧ numberAt p 62 1 = i.val)
      ∧ numberAt p 63 2 = s.report.flags.toNat ∧ numberAt p 65 1 = s.report.queue.length % 256)
  ∧ (∀ x : Straps, (identFields x).length = 49
      ∧ (identFields x).take 16 = [0x4C, 0x4F, 0x48, 0x46, 0x45, 0x4C, 0x44, 0, 0x57, 0x34, 0x38, 0x30, 0, 0, 0, 0]
      ∧ numberAt (identFields x) 16 1 = 1 ∧ numberAt (identFields x) 17 1 = x.addr1.toNat * 2 + x.addr0.toNat + 1
      ∧ numberAt (identFields x) 18 1 = x.rate.toNat
      ∧ ∀ n, n < 15 → numberAt (identFields x) (19 + 2 * n) 2 = [4, 8, 512, 4, 32, 8, 4, 4, 64, 48, 12, 64, 8, 32, 1024].getD n 0)
  ∧ (∀ (x : CardStore) (p : List Byte), p = bankInfoFields x →
      p.length = 117
      ∧ (∀ b : Fin 8, numberAt p (14 * b.val) 1 = x.banks[b].valid.toNat ∧ numberAt p (14 * b.val + 1) 4 = x.banks[b].die % 4294967296
          ∧ numberAt p (14 * b.val + 5) 2 = x.banks[b].revision % 65536 ∧ numberAt p (14 * b.val + 7) 4 = x.banks[b].digest.toNat
          ∧ numberAt p (14 * b.val + 11) 1 = [Lock.unlocked, .held, .fixed].idxOf x.banks[b].lock
          ∧ numberAt p (14 * b.val + 12) 2 = x.banks[b].storeCount % 65536)
      ∧ numberAt p 112 1 = (x.boot.map Fin.val).getD 255
      ∧ (x.engine = .idle → numberAt p 113 1 = 0 ∧ numberAt p 114 1 = 255)
      ∧ (∀ j, x.engine = .storing j → numberAt p 113 1 = 1 ∧ numberAt p 114 1 = j.bank.val)
      ∧ (x.lastOutcome = .none → numberAt p 115 1 = 0 ∧ numberAt p 116 1 = 255)
      ∧ (∀ i, x.lastOutcome = .done i → numberAt p 115 1 = 1 ∧ numberAt p 116 1 = i.val)
      ∧ ∀ i, x.lastOutcome = .fail i → numberAt p 115 1 = 2 ∧ numberAt p 116 1 = i.val)
  ∧ (∀ (s : State) (p : List Byte), p = headInfoFields s →
      p.length = 73 ∧ numberAt p 72 1 = s.scan.check.isSome.toNat
      ∧ ∀ h : Fin 8, numberAt p (9 * h.val) 1 = s.store.card.heads[h].enabled.toNat
          ∧ numberAt p (9 * h.val + 1) 1 = [HeadState.offline, .ok, .fault, .blinded].idxOf s.scan.heads[h].state
          ∧ numberAt p (9 * h.val + 2) 1 = s.scan.heads[h].miss % 256 ∧ numberAt p (9 * h.val + 3) 1 = s.scan.heads[h].sparse % 256
          ∧ (s.scan.heads[h].lastLine = none → numberAt p (9 * h.val + 4) 2 = 65535 ∧ numberAt p (9 * h.val + 6) 1 = 0
              ∧ numberAt p (9 * h.val + 7) 1 = 0)
          ∧ (∀ l, s.scan.heads[h].lastLine = some l → numberAt p (9 * h.val + 4) 2 = l.valid % 65536
              ∧ numberAt p (9 * h.val + 6) 1 = 1 ∧ numberAt p (9 * h.val + 7) 1 = l.peak % 256)
          ∧ numberAt p (9 * h.val + 8) 1
              = [CheckResult.none, .pending, .pass, .noLine, .dark, .bright, .sparse].idxOf s.scan.heads[h].check)
  ∧ (∀ (z : ClosedZone) (p : List Byte), p = zoneFields z →
      p.length = 25 ∧ numberAt p 0 2 = z.number % 65536
      ∧ numberAt p 2 1 = [ZoneClass.dimension, .blind, .weld, .stop, .merged].idxOf z.cls
      ∧ numberAt p 3 1 = (z.feature.map Fin.val).getD 255 ∧ numberAt p 4 1 = [Severity.minor, .major, .cutout].idxOf z.severity
      ∧ numberAt p 5 4 = signed32 z.start ∧ numberAt p 9 4 = signed32 z.finish
      ∧ numberAt p 13 1 = (z.sides.map [Sides.low, .high, .both].idxOf).getD 255
      ∧ numberAt p 14 4 = signed32 ((z.worst.map Worst.excess).getD 0) ∧ numberAt p 18 4 = signed32 ((z.worst.map Worst.w).getD 0)
      ∧ numberAt p 22 2 = z.billet.getD 0 % 65536
      ∧ numberAt p 24 1 = z.sources.dimension.toNat + 2 * z.sources.blind.toNat + 4 * z.sources.weld.toNat + 8 * z.sources.stop.toNat)
  ∧ (∀ (e : TrendEntry) (p : List Byte), p = trendFields e →
      p.length = 12 ∧ numberAt p 0 1 = e.feature.val ∧ numberAt p 1 1 = e.extreme.least.isSome.toNat
      ∧ numberAt p 2 4 = signed32 (e.extreme.least.getD 0) ∧ numberAt p 6 4 = signed32 (e.extreme.greatest.getD 0)
      ∧ numberAt p 10 2 = e.extreme.missing % 65536)
  ∧ (∀ (r : LengthRecord) (p : List Byte), p = recordFields r →
      p.length = 39 + 12 * r.trends.length + 25 * r.zones.length
      ∧ numberAt p 0 2 = r.sequence % 65536 ∧ numberAt p 2 1 = r.strand.val ∧ numberAt p 3 2 = r.index % 65536
      ∧ numberAt p 5 4 = signed32 r.lower ∧ numberAt p 9 4 = signed32 r.upper ∧ numberAt p 13 4 = signed32 r.hot
      ∧ numberAt p 17 4 = signed32 r.cold ∧ numberAt p 21 2 = r.tMean % 65536 ∧ numberAt p 23 1 = r.fallback.toNat
      ∧ numberAt p 24 1 = [Verdict.accept, .reject, .nose, .tail, .short].idxOf r.verdict
      ∧ numberAt p 25 2 = r.reasons.dimension.toNat + 2 * r.reasons.blind.toNat + 4 * r.reasons.weld.toNat
          + 8 * r.reasons.stop.toNat + 16 * r.reasons.cropSpan.toNat + 32 * r.reasons.failsafe.toNat
          + 64 * r.reasons.cutLost.toNat + 128 * r.reasons.withdrawn.toNat + 256 * r.reasons.aborted.toNat
      ∧ numberAt p 27 2 = r.firstBillet % 65536 ∧ numberAt p 29 2 = r.lastBillet % 65536 ∧ numberAt p 31 4 = r.digest.toNat
      ∧ numberAt p 35 1 = r.trends.length % 256 ∧ numberAt p 36 1 = r.zones.length % 256 ∧ numberAt p 37 2 = r.omitted % 65536
      ∧ p.drop 39 = r.trends.flatMap trendFields ++ r.zones.flatMap zoneFields)
  ∧ (∀ (u : ReportUnit) (p : List Byte), p = reportFields u →
      numberAt p 0 1 = u.queue.length % 256 ∧ numberAt p 1 4 = u.tally.lengths % 4294967296
      ∧ numberAt p 5 4 = u.tally.rejects % 4294967296 ∧ numberAt p 9 4 = u.tally.millis % 4294967296
      ∧ (u.queue = [] → p.length = 13) ∧ ∀ r rest, u.queue = r :: rest → p.drop 13 = recordFields r)
  ∧ ∀ (st : Strand) (start n : Nat) (p : List Byte), p = trackFields st start → n = 23 + 25 * min 8 (st.closed.length - start) →
      p.length = n + 14
      ∧ numberAt p 0 1 = [StrandState.absent, .idle, .nose, .running, .tailing, .ended].idxOf st.state
      ∧ numberAt p 1 4 = signed32 st.nose ∧ numberAt p 5 4 = signed32 (st.tail.getD (-2147483648))
      ∧ numberAt p 9 4 = signed32 st.lastCut ∧ numberAt p 13 2 = st.billet % 65536 ∧ numberAt p 15 2 = st.lowerBillet % 65536
      ∧ numberAt p 17 2 = st.lengthIndex % 65536 ∧ numberAt p 19 2 = st.nextZone % 65536 ∧ numberAt p 21 1 = st.cutLost.toNat
      ∧ numberAt p 22 1 = st.closed.length % 256
      ∧ (p.drop 23).take (n - 23) = ((st.closed.drop start).take 8).flatMap zoneFields
      ∧ numberAt p n 1 = featuresInOrder.countP (fun f => st.dimensions[f].isSome)
      ∧ numberAt p (n + 1) 1 = featuresInOrder.countP (fun f => st.blinds[f].isSome)
      ∧ (∀ m, (numberAt p (n + 2) 4).testBit m = true ↔ ∃ f : Fin 32, f.val = m ∧ st.dimensions[f].isSome = true)
      ∧ (∀ m, (numberAt p (n + 6) 4).testBit m = true ↔ ∃ f : Fin 32, f.val = m ∧ st.blinds[f].isSome = true)
      ∧ ((∀ f : Fin 32, st.dimensions[f] = none ∧ st.blinds[f] = none) → numberAt p (n + 10) 4 = 2147483648)
      ∧ ∀ x : Int, (∃ f : Fin 32, (∃ o, st.dimensions[f] = some o ∧ o.start = x) ∨ ∃ o, st.blinds[f] = some o ∧ o.start = x) →
          (∀ f : Fin 32, (∀ o, st.dimensions[f] = some o → x ≤ o.start) ∧ ∀ o, st.blinds[f] = some o → x ≤ o.start) →
          numberAt p (n + 10) 4 = signed32 x

/-! ### The section engine -/

/-- R6 to R14, R65, R74, R76 to R79, R86, R88 to R90: the evaluation of the next strand of the slot in hand writes its last-results
record; as a track slot it also moves its persistence records on and sends its events. The end of an evaluation frees the slot. The
points of a window, their coordinates, and a feature's result, h, w and class are as the rules give them. Which evaluation a command
may end, and the outbox, are the model's (log entries 5, 21). -/
def Obligations.EvaluationWritesResultsAndFreesSlot : Prop :=
  (∀ (h : HeadRecord) (curve : Vector Int 17) (column : Nat) (seg : Fin 16) (f : Nat) (x z : Int), f < 4096 →
    x = ((column : Int) - (h.c0 : Int)) * (h.pitch : Int) →
    Rounds ((curve[seg.succ] - curve[seg.castSucc]) * (f : Int)) 4096 (z - curve[seg.castSucc]) →
      ∀ u v : Int, (u, v) = (match h.mirrorColumn, h.mirrorRange, h.swap with
        | false, false, false => (x, z)
        | true, false, false => (-x, z)
        | false, true, false => (x, -z)
        | true, true, false => (-x, -z)
        | false, false, true => (z, x)
        | true, false, true => (z, -x)
        | false, true, true => (-z, x)
        | true, true, true => (-z, -x)) →
          framePoint h curve column (4096 * seg.val + f) = (u + h.offU, v + h.offV))
  ∧ (∀ (c : Card) (lines : List Line) (i : Fin 4) (p : Place) (serves : Fin 8 → Prop),
      (∀ h, serves h ↔ c.heads[h].enabled = true ∧ c.heads[h].strand = i ∧ c.heads[h].position = p.position) →
      ((∀ h, ¬ serves h) → pointSet c lines i p = [])
      ∧ ∀ h, serves h → (∀ j, serves j → j = h) →
          ((∀ l ∈ lines, l.head ≠ h) → pointSet c lines i p = [])
          ∧ ∀ before l after, lines = before ++ l :: after → l.head = h → (∀ m ∈ before, m.head ≠ h) →
              pointSet c lines i p = ((List.range l.codes.length).filter fun column =>
                  decide (p.window.first ≤ column ∧ column ≤ p.window.last ∧ 1 ≤ l.codes.getD column 0 ∧ l.codes.getD column 0 ≤ 65534)).map
                fun column => framePoint c.heads[h] c.curves[h] column (l.codes.getD column 0))
  ∧ (∀ (c : Card) (k : Slot) (i : Fin 4) (f : Fin 32),
      (c.features[f] = none → featureResult c k i f = none)
      ∧ ∀ (x : Feature) (points : Place → List (Int × Int)), c.features[f] = some x → (∀ p, points p = pointSet c k.lines i p) →
        ((points x.placeA).length < x.minPoints
            ∨ x.kind = .gap ∧ (∀ p, x.placeB = some p → (points p).length < x.minPoints) →
          featureResult c k i f = some .missing)
        ∧ (x.minPoints ≤ (points x.placeA).length →
          ∀ (h w correction : Int) (span : List Int → Prop) (level : Place → Int → Prop),
            (∀ us, span us ↔ ∃ a ∈ us, ∃ b ∈ us, (∀ y ∈ us, a ≤ y ∧ y ≤ b) ∧ h = b - a) →
            (∀ p y, level p y ↔ Rounds ((points p).map Prod.snd).sum (points p).length y) →
            (x.kind = .span ∧ span ((points x.placeA).map Prod.fst) ∨ x.kind = .flat ∧ span ((points x.placeA).map Prod.snd)
              ∨ x.kind = .level ∧ level x.placeA h
              ∨ x.kind = .gap ∧ ∃ p a b, x.placeB = some p ∧ x.minPoints ≤ (points p).length ∧ level x.placeA a ∧ level p b
                  ∧ h = b - a) →
            Rounds (h * ([c.thermal.k0, c.thermal.k1, c.thermal.k2, c.thermal.k3].getD k.capture[i].band.val 0 : Nat)
              * ((k.capture[i].temperature : Int) - 200)) 1000000000 correction →
            w = h - correction →
              featureResult c k i f = some (.found (if w < x.limits.nominal + x.limits.lower then .low
                else if x.limits.nominal + x.limits.upper < w then .high else .inside) h w)))
  ∧ (∀ (s : State) (v : Evaluation) (k : Slot) (i : Fin 4) (rest : List (Fin 4)) (noted : SectionEngine), s.powered = true →
    s.engine.evaluation = some v → s.scan.slots[v.slot] = some k → v.todo = i :: rest →
    noted = { s.engine with
      evaluation := some { v with todo := rest },
      last := setAt s.engine.last i (some
        { number := k.number, x := k.x, temperature := k.capture[i].temperature, band := k.capture[i].band, manual := k.manual,
          features := Vector.ofFn fun f => featureResult v.card k i f }) } →
      (v.track = false → exec (.strandEvaluation i) s = .next { s with engine := noted })
      ∧ (v.track = true → exec (.strandEvaluation i) s = .next { s with engine := { noted with
          persistence := setAt s.engine.persistence i (persistenceAfter v.card k i s.engine.persistence[i]),
          sent := s.engine.sent ++ eventsOf v.card k i s.engine.persistence[i] } })
      ∧ ∀ j, j ≠ i → exec (.strandEvaluation j) s = .next s)
  ∧ ∀ (s : State) (v : Evaluation) (freed : ScanAssembler), s.powered = true → s.engine.evaluation = some v →
      freed = { s.scan with slots := setAt s.scan.slots v.slot none } →
      (v.todo ≠ [] → exec .slotEvaluationEnd s = .next s)
      ∧ (v.todo = [] → (∀ i, freed.holds (fun k => k.phase == .evaluating) i = false) →
          (∀ j k todo, freed.oldest (fun _ => true) = some j → freed.slots[j] = some k → k.phase = .closed →
            todo = (if k.manual then strandsInOrder.filter fun i => decide (i.val < s.store.card.strands)
                    else if s.engine.stale[j] && decide (j ≠ v.slot) then []
                    else strandsInOrder.filter fun i => decide (i.val < s.store.card.strands) && s.tracker.strands[i].active
                      && decide (0 ≤ k.x) && (match s.tracker.strands[i].tail with
                          | some t => decide (k.x < t)
                          | none => true)) →
            exec .slotEvaluationEnd s = .next { s with
              scan := { freed with slots := setAt freed.slots j (some { k with phase := .evaluating }) },
              engine := { s.engine with
                stale := setAt s.engine.stale v.slot false,
                evaluation := some { slot := j, card := s.store.card, track := !k.manual, todo := todo } } })
          ∧ ((∀ j k, freed.oldest (fun _ => true) = some j → freed.slots[j] = some k → k.phase ≠ .closed) →
            exec .slotEvaluationEnd s = .next { s with
              scan := freed, engine := { s.engine with stale := setAt s.engine.stale v.slot false, evaluation := none } }))

/-- R80 to R87: what an out, IN or MISSING result and carried skips do to a persistence record and what they send: the runs, the opening
and closing of DIMENSION and BLIND zones with their starts, ends, sides and worst; the record of a feature after a track slot, carried
skips first; and the events of a strand in their order. Out results in a row open a zone with the K_open-th, at the first one's
coordinate and with the greatest excess; IN results in a row close it with the K_close-th. -/
def Obligations.OutRunsOpenAndInRunsCloseZones : Prop :=
  (∀ (k : Nat) (side : Side) (x : Int) (w : Worst) (rs : List (Int × Worst)) (p : Persistence), 1 ≤ k → k ≤ 15 →
    p = ((x, w) :: rs).foldl (fun p r => (p.out_ k side r.1 r.2).1) Persistence.clear →
      (p.zone.isSome = true ↔ k ≤ rs.length + 1)
      ∧ ∀ z, p.zone = some z → z.start = x ∧ z.worst ∈ ((x, w) :: rs).map Prod.snd
          ∧ ∀ r ∈ (x, w) :: rs, r.2.excess ≤ z.worst.excess)
  ∧ (∀ (k : Nat) (xs : List Int) (p : Persistence) (z : EngineZone), 1 ≤ k → k ≤ 15 → p.zone = some z → p.inRun = none →
      ((xs.foldl (fun p x => (p.in_ k x).1) p).zone.isSome = true ↔ xs.length < k)
      ∧ (xs.length < k → (xs.foldl (fun p x => (p.in_ k x).1) p).zone = some z))
  ∧ (∀ (p : Persistence) (limit m : Nat) (q : Int) (run : ScanRun),
      (p.miss = none → run = { count := min 255 m, start := q }) →
      (∀ r, p.miss = some r → run = { count := min 255 (r.count + m), start := r.start }) →
        (0 < limit ∧ p.blind = false ∧ limit ≤ run.count →
          p.miss_ limit m q = ({ p with miss := some run, blind := true }, some run.start))
        ∧ (limit = 0 ∨ p.blind = true ∨ run.count < limit → p.miss_ limit m q = ({ p with miss := some run }, none)))
  ∧ (∀ (p : Persistence) (x : Int),
      (p.blind = false → p.endMiss x = ({ p with miss := none }, none))
      ∧ ∀ r, p.blind = true → p.miss = some r →
          p.endMiss x = ({ p with miss := none, blind := false }, some (if x ≤ r.start then r.start + 1 else x)))
  ∧ (∀ (p : Persistence) (k : Nat) (x : Int),
      (p.zone = none → p.in_ k x = ({ p with out := none }, none))
      ∧ ∀ (z : EngineZone) (run : ScanRun), p.zone = some z → (p.inRun = none → run = { count := 1, start := x }) →
          (∀ r, p.inRun = some r → run = { count := min 15 (r.count + 1), start := r.start }) →
            (run.count < k → p.in_ k x = ({ p with out := none, inRun := some run }, none))
            ∧ (k ≤ run.count → p.in_ k x = ({ p with out := none, inRun := none, zone := none },
                some (if run.start ≤ z.start then z.start + 1 else run.start))))
  ∧ (∀ (p : Persistence) (k : Nat) (side : Side) (sides : Sides) (x : Int) (w : Worst) (run : OutRun),
      (side = .low ∧ sides = .low ∨ side = .high ∧ sides = .high) →
      (p.out = none → run = { count := 1, start := x, sides := sides, worst := w }) →
      (∀ r, p.out = some r → run =
        { count := min 15 (r.count + 1), start := r.start, sides := if r.sides = sides then r.sides else .both,
          worst := if r.worst.excess < w.excess then w else r.worst }) →
        (p.zone = none → k ≤ run.count → p.out_ k side x w =
          ({ p with out := some run, inRun := none, zone := some { start := run.start, worst := run.worst } },
            .opened run.start run.sides run.worst))
        ∧ (p.zone = none → run.count < k → p.out_ k side x w = ({ p with out := some run, inRun := none }, .nothing))
        ∧ ∀ z, p.zone = some z →
            (z.worst.excess < w.excess → p.out_ k side x w =
              ({ p with out := some run, inRun := none, zone := some { z with worst := w } }, .updated (some w)))
            ∧ (w.excess ≤ z.worst.excess → p.out_ k side x w = ({ p with out := some run, inRun := none }, .updated none)))
  ∧ (∀ (c : Card) (k : Slot) (i : Fin 4) (ps : Vector Persistence 32) (f : Fin 32) (after : Persistence),
      after = (persistenceAfter c k i ps)[f] →
        (c.features[f] = none → after = ps[f])
        ∧ ∀ (x : Feature) (p : Persistence), c.features[f] = some x → (k.skips = none → p = ps[f]) →
            (∀ m, k.skips = some m → p = (ps[f].miss_ c.line.blindLimit m.count m.first).1) →
              (featureResult c k i f = some .missing → after = (p.miss_ c.line.blindLimit 1 k.x).1)
              ∧ (∀ h w, featureResult c k i f = some (.found .inside h w) →
                  after = ((p.endMiss k.x).1.in_ x.limits.kClose k.x).1)
              ∧ ∀ h w side excess, featureResult c k i f = some (.found (match side with | .low => .low | .high => .high) h w) →
                  (side = .low ∧ excess = x.limits.nominal + x.limits.lower - w
                    ∨ side = .high ∧ excess = w - (x.limits.nominal + x.limits.upper)) →
                  after = ((p.endMiss k.x).1.out_ x.limits.kOpen side k.x { excess := excess, w := w }).1)
  ∧ ∀ (c : Card) (k : Slot) (i : Fin 4) (ps : Vector Persistence 32) (opening own : Fin 32 → List TrackerEvent)
      (blindOpen blindClose dimensionClose : Fin 32 → Option Int → List TrackerEvent),
      (∀ f, blindOpen f none = [] ∧ blindClose f none = [] ∧ dimensionClose f none = []) →
      (∀ f a, blindOpen f (some a) = [.start { strand := i, feature := f, start := a, finding := .blind }]
        ∧ blindClose f (some a) = [.close { strand := i, feature := f, kind := .blind, finish := a }]
        ∧ dimensionClose f (some a) = [.close { strand := i, feature := f, kind := .dimension, finish := a }]) →
      (∀ f, c.features[f] = none → opening f = [] ∧ own f = []) →
      (∀ f x, c.features[f] = some x → (k.skips = none → opening f = [])
        ∧ (∀ m, k.skips = some m → opening f = blindOpen f (ps[f].miss_ c.line.blindLimit m.count m.first).2)
        ∧ ∀ p : Persistence, (k.skips = none → p = ps[f]) →
            (∀ m, k.skips = some m → p = (ps[f].miss_ c.line.blindLimit m.count m.first).1) →
              (featureResult c k i f = some .missing → own f = blindOpen f (p.miss_ c.line.blindLimit 1 k.x).2)
              ∧ (∀ h w, featureResult c k i f = some (.found .inside h w) →
                  own f = blindClose f (p.endMiss k.x).2
                    ++ dimensionClose f ((p.endMiss k.x).1.in_ x.limits.kClose k.x).2)
              ∧ ∀ h w side excess, featureResult c k i f = some (.found (match side with | .low => .low | .high => .high) h w) →
                  (side = .low ∧ excess = x.limits.nominal + x.limits.lower - w
                    ∨ side = .high ∧ excess = w - (x.limits.nominal + x.limits.upper)) →
                  own f = blindClose f (p.endMiss k.x).2
                    ++ (match ((p.endMiss k.x).1.out_ x.limits.kOpen side k.x { excess := excess, w := w }).2 with
                      | .opened start sides worst =>
                          [.start { strand := i, feature := f, start := start, finding := .dimension sides worst }]
                      | .updated worst => [.update { strand := i, feature := f, side := side, worst := worst }]
                      | .nothing => [])) →
        eventsOf c k i ps = featuresInOrder.flatMap opening
          ++ TrackerEvent.scan
              { strand := i, x := k.x, temperature := k.capture[i].temperature, fallback := k.capture[i].fallback,
                trended := featuresInOrder.filterMap fun f => match c.features[f], featureResult c k i f with
                  | some x, some .missing => if x.trended then some { feature := f, w := none } else none
                  | some x, some (.found _ _ w) => if x.trended then some { feature := f, w := some w } else none
                  | _, _ => none }
          :: featuresInOrder.flatMap own

/-! ### The strand tracker -/

/-- R110, R111: a scan event is discarded by a strand that is not active, discarded and counted below the last cut or at the
tail, and otherwise moves NOSE to RUNNING and enters the length's sums and extremes; what each trended value does to the extremes, one
after another. An event is taken where the outbox offers it
(the model's: log entry 5). -/
def Obligations.ScanEventEntersTheLength : Prop :=
  (∀ (s : State) (e : ScanEvent) (st : Strand), s.powered = true → s.offers (.scan e) → st = s.tracker.strands[e.strand] →
    (st.active = false → exec (.scanEvent e) s = .next s.received)
    ∧ (st.active = true → (e.x < st.lastCut ∨ (∃ t, st.state = .tailing ∧ st.tail = some t ∧ t ≤ e.x)) →
        exec (.scanEvent e) s = .next { s.received with
          report := { s.report with counters := { s.report.counters with lateResult := min 65535 (s.report.counters.lateResult + 1) },
                                    flags := s.report.flags ||| 256#11 } })
    ∧ (st.active = true → st.lastCut ≤ e.x → (∀ t, st.state = .tailing → st.tail = some t → e.x < t) →
        exec (.scanEvent e) s = .next { s.received with
          tracker := { s.tracker with strands := setAt s.tracker.strands e.strand { st with
              state := if st.state = .nose then .running else st.state,
              tempSum := st.tempSum + e.temperature, scanCount := st.scanCount + 1,
              fallbackMark := st.fallbackMark || e.fallback, extremes := foldTrended e.trended st.extremes } } }))
  ∧ (∀ xs : Vector Extreme 32, foldTrended [] xs = xs)
  ∧ ∀ (v : TrendValue) (vs : List TrendValue) (xs : Vector Extreme 32) (x y : Extreme), x = xs[v.feature] →
      (v.w = none → y = { x with missing := min 65535 (x.missing + 1) }) →
      (∀ w, v.w = some w → y.missing = x.missing
        ∧ (x.least = none → y.least = some w) ∧ (∀ a, x.least = some a → y.least = some (if w < a then w else a))
        ∧ (x.greatest = none → y.greatest = some w) ∧ ∀ a, x.greatest = some a → y.greatest = some (if a < w then w else a)) →
      foldTrended (v :: vs) xs = foldTrended vs (setAt xs v.feature y)

/-- R103, R104, R111: open and update events, every case. An event is taken where the outbox offers it (the model's: log entry
5). -/
def Obligations.ZoneOpenAndUpdateEvents : Prop :=
  (∀ (s : State) (e : ZoneOpen) (st : Strand) (late : ReportUnit), s.powered = true → s.offers (.start e) →
    st = s.tracker.strands[e.strand] →
    late = { s.report with counters := { s.report.counters with lateResult := min 65535 (s.report.counters.lateResult + 1) },
                           flags := s.report.flags ||| 256#11 } →
    ((st.active = false ∨ ∃ t, st.state = .tailing ∧ st.tail = some t ∧ t ≤ e.start) →
      exec (.zoneOpenEvent e) s = .next { s.received with report := late })
    ∧ (st.active = true → (∀ t, st.state = .tailing → st.tail = some t → e.start < t) →
        (∀ sides worst, e.finding = .dimension sides worst →
          (∀ o, st.dimensions[e.feature] = some o →
            exec (.zoneOpenEvent e) s = .next { s.received with
              tracker := { s.tracker with strands := setAt s.tracker.strands e.strand { st with
                dimensions := setAt st.dimensions e.feature (some { o with
                  sides := if o.sides = sides then o.sides else .both,
                  worst := if o.worst.excess < worst.excess then worst else o.worst }) } } })
          ∧ (st.dimensions[e.feature] = none →
            exec (.zoneOpenEvent e) s = .next { s.received with
              tracker := { s.tracker with strands := setAt s.tracker.strands e.strand { st with
                nextZone := if st.nextZone < 65535 then st.nextZone + 1 else 1,
                dimensions := setAt st.dimensions e.feature (some
                  { number := st.nextZone, start := max e.start st.lastCut, sides := sides, worst := worst }) } },
              report := if e.start < st.lastCut ∧ st.nose < st.lastCut then late else s.report }))
        ∧ (e.finding = .blind →
          ((st.blinds[e.feature]).isSome = true → exec (.zoneOpenEvent e) s = .next s.received)
          ∧ (st.blinds[e.feature] = none →
            exec (.zoneOpenEvent e) s = .next { s.received with
              tracker := { s.tracker with strands := setAt s.tracker.strands e.strand { st with
                nextZone := if st.nextZone < 65535 then st.nextZone + 1 else 1,
                blinds := setAt st.blinds e.feature (some { number := st.nextZone, start := max e.start st.lastCut }) } },
              report := if e.start < st.lastCut ∧ st.nose < st.lastCut then late else s.report }))))
  ∧ ∀ (s : State) (e : ZoneUpdate) (st : Strand), s.powered = true → s.offers (.update e) → st = s.tracker.strands[e.strand] →
      ((st.active = false ∨ st.dimensions[e.feature] = none) → exec (.zoneUpdateEvent e) s = .next s.received)
      ∧ ∀ o, st.active = true → st.dimensions[e.feature] = some o →
          exec (.zoneUpdateEvent e) s = .next { s.received with
            tracker := { s.tracker with strands := setAt s.tracker.strands e.strand { st with
              dimensions := setAt st.dimensions e.feature (some { o with
                sides := (match o.sides, e.side with
                  | .low, .low => .low
                  | .high, .high => .high
                  | _, _ => .both),
                worst := (match e.worst with
                  | some w => if o.worst.excess < w.excess then w else o.worst
                  | none => o.worst) }) } } }

/-- R105 to R108, R111: a close event takes the entry out of the table; its zone is dropped and counted, merged, inserted, or
inserted with a coarsening back to 48 entries; which zones merge, where a zone is inserted, what two joined zones become, and which
pair a coarsening joins. An event is taken where the outbox offers it (the model's: log entry 5). -/
def Obligations.ZoneCloseEventClosesTheZone : Prop :=
  (∀ (gap : Nat) (z y : ClosedZone), mergesWith gap z y = true ↔
    y.cls = z.cls ∧ y.feature = z.feature ∧ max y.start z.start - min y.finish z.finish ≤ (gap : Int))
  ∧ (∀ (z : ClosedZone) (before after : List ClosedZone), (∀ y ∈ before, y.start ≤ z.start) → (∀ y ∈ after.head?, z.start < y.start) →
      insertZone z (before ++ after) = before ++ z :: after)
  ∧ (∀ a b j : ClosedZone, j = joinZones a b →
      j.number = a.number ∧ j.start = min a.start b.start ∧ j.finish = max a.finish b.finish
      ∧ (a.cls = b.cls → a.feature = b.feature → j.cls = a.cls ∧ j.feature = a.feature)
      ∧ (a.cls ≠ b.cls ∨ a.feature ≠ b.feature → j.cls = .merged ∧ j.feature = none)
      ∧ (∀ rank : Severity → Nat, rank .minor = 0 → rank .major = 1 → rank .cutout = 2 →
          rank j.severity = max (rank a.severity) (rank b.severity))
      ∧ j.sources = { dimension := a.sources.dimension || b.sources.dimension, blind := a.sources.blind || b.sources.blind,
                      weld := a.sources.weld || b.sources.weld, stop := a.sources.stop || b.sources.stop }
      ∧ (a.worst = none → j.worst = b.worst) ∧ (b.worst = none → j.worst = a.worst)
      ∧ (∀ v w, a.worst = some v → b.worst = some w → j.worst = some (if v.excess < w.excess then w else v))
      ∧ (a.billet = none → j.billet = b.billet) ∧ (b.billet = none → j.billet = a.billet)
      ∧ (∀ m n, a.billet = some m → b.billet = some n → j.billet = some (max m n))
      ∧ (j.cls ≠ .dimension → j.sides = none)
      ∧ (j.cls = .dimension → (a.sides = none → j.sides = b.sides) ∧ (b.sides = none → j.sides = a.sides)
          ∧ ∀ x y, a.sides = some x → b.sides = some y → j.sides = some (if x = y then x else .both)))
  ∧ (∀ (before after : List ClosedZone) (a b : ClosedZone),
      (∀ pre post y z, before ++ a :: b :: after = pre ++ y :: z :: post →
        b.start - a.finish ≤ z.start - y.finish ∧ (z.start - y.finish = b.start - a.finish → before.length ≤ pre.length)) →
        coarsen (before ++ a :: b :: after) = before ++ joinZones a b :: after)
  ∧ ∀ (s : State) (e : ZoneClose) (st left : Strand) (start : Int) (z : ClosedZone), s.powered = true → s.offers (.close e) →
    st = s.tracker.strands[e.strand] →
    (st.active = false → exec (.zoneCloseEvent e) s = .next s.received)
    ∧ (e.kind = .dimension → st.dimensions[e.feature] = none → exec (.zoneCloseEvent e) s = .next s.received)
    ∧ (e.kind = .blind → st.blinds[e.feature] = none → exec (.zoneCloseEvent e) s = .next s.received)
    ∧ (st.active = true → z.start = start → z.finish = e.finish →
        ((∃ o f, e.kind = .dimension ∧ st.dimensions[e.feature] = some o ∧ s.store.card.features[e.feature] = some f
            ∧ left = { st with dimensions := setAt st.dimensions e.feature none }
            ∧ z = { number := o.number, cls := .dimension, feature := some e.feature, severity := f.limits.severity.severity,
                    start := o.start, finish := e.finish, sides := some o.sides, worst := some o.worst, billet := none,
                    sources := { dimension := true, blind := false, weld := false, stop := false } })
          ∨ (∃ o, e.kind = .blind ∧ st.blinds[e.feature] = some o ∧ left = { st with blinds := setAt st.blinds e.feature none }
            ∧ z = { number := o.number, cls := .blind, feature := some e.feature,
                    severity := s.store.card.line.blindSeverity.severity, start := o.start, finish := e.finish, sides := none,
                    worst := none, billet := none,
                    sources := { dimension := false, blind := true, weld := false, stop := false } })) →
        (e.finish ≤ start → exec (.zoneCloseEvent e) s = .next { s.received with
          tracker := { s.tracker with strands := setAt s.tracker.strands e.strand left },
          report := { s.report with counters := { s.report.counters with lateResult := min 65535 (s.report.counters.lateResult + 1) },
                                    flags := s.report.flags ||| 256#11 } })
        ∧ (start < e.finish →
          (∀ y ys, st.closed.filter (mergesWith s.store.card.line.mergeGap z) = y :: ys →
            exec (.zoneCloseEvent e) s = .next { s.received with
              tracker := { s.tracker with strands := setAt s.tracker.strands e.strand { left with
                closed := insertZone ((ys ++ [z]).foldl joinZones y)
                  (st.closed.filter fun y => !mergesWith s.store.card.line.mergeGap z y) } } })
          ∧ (st.closed.filter (mergesWith s.store.card.line.mergeGap z) = [] → st.closed.length < 48 →
            exec (.zoneCloseEvent e) s = .next { s.received with
              tracker := { s.tracker with strands := setAt s.tracker.strands e.strand { left with closed := insertZone z st.closed } } })
          ∧ (st.closed.filter (mergesWith s.store.card.line.mergeGap z) = [] → st.closed.length = 48 →
            ∃ zs, zs.length = 48 ∧ zs = coarsen (insertZone z st.closed)
              ∧ exec (.zoneCloseEvent e) s = .next { s.received with
                  tracker := { s.tracker with strands := setAt s.tracker.strands e.strand { left with closed := zs } },
                  report := { s.report with
                    counters := { s.report.counters with coarsening := min 65535 (s.report.counters.coarsening + 1) },
                    flags := s.report.flags ||| 8#11 } })))

/-- R66, R67, R116, R117, R120, R122 to R127: a length record: its bounds, hot and cold length, mean temperature, fallback mark,
billets and trend entries; its candidates in gathering order and the 12 zone entries kept of them; its verdict, that of the first
case that applies; and its reasons, a set of all that hold. The severity of an open zone whose feature is absent is the model's free
value (log entry 9), any severity here. -/
def Obligations.VerdictIsTheFirstCaseThatApplies : Prop :=
  (∀ (c : Card) (d : Word32) (th : ThermalRecord) (fs : Failsafe) (o : Origin) (i : Fin 4) (st : Strand) (upper : Int)
    (r : LengthRecord) (cs : List ClosedZone) (rank : Severity → Nat), r = lengthRecord c d th fs o i st upper →
    cs = candidates c upper st → rank .minor = 0 → rank .major = 1 → rank .cutout = 2 →
    r.strand = i ∧ r.firstBillet = st.lowerBillet
    ∧ (0 < st.scanCount → Rounds st.tempSum st.scanCount r.tMean) ∧ (st.scanCount = 0 → r.tMean = th.temperature)
    ∧ (r.fallback = true ↔ st.fallbackMark = true ∨ st.scanCount = 0 ∧ th.fallback = true)
    ∧ Rounds (r.hot * ([c.thermal.k0, c.thermal.k1, c.thermal.k2, c.thermal.k3].getD (plainBand c.thermal r.tMean).val 0 : Nat)
        * ((r.tMean : Int) - 200)) 1000000000 (r.hot - r.cold)
    ∧ (r.lastBillet = st.lowerBillet ∨ ∃ z ∈ cs, z.billet = some r.lastBillet)
    ∧ st.lowerBillet ≤ r.lastBillet ∧ (∀ z ∈ cs, ∀ n, z.billet = some n → n ≤ r.lastBillet)
    ∧ r.trends = (featuresInOrder.filterMap fun f =>
        if st.extremes[f] = { least := none, greatest := none, missing := 0 } then none
        else some { feature := f, extreme := st.extremes[f] })
    ∧ (∃ severity : Fin 32 → Severity,
        (∀ f x, c.features[f] = some x → severity f = (match x.limits.severity with | .minor => .minor | .major => .major))
        ∧ cs = ((st.closed.filter fun z => decide (z.start < upper)).map fun z => { z with finish := min z.finish upper })
          ++ (featuresInOrder.filterMap fun f => match st.dimensions[f] with
              | some o => if o.start < upper then some
                  { number := o.number, cls := .dimension, feature := some f, severity := severity f, start := o.start,
                    finish := upper, sides := some o.sides, worst := some o.worst, billet := none,
                    sources := { dimension := true, blind := false, weld := false, stop := false } } else none
              | none => none)
          ++ (featuresInOrder.filterMap fun f => match st.blinds[f] with
              | some o => if o.start < upper then some
                  { number := o.number, cls := .blind, feature := some f,
                    severity := (match c.line.blindSeverity with | .minor => .minor | .major => .major), start := o.start,
                    finish := upper, sides := none, worst := none, billet := none,
                    sources := { dimension := false, blind := true, weld := false, stop := false } } else none
              | none => none))
    ∧ r.omitted = cs.length - 12
    ∧ ∃ kept : List (ClosedZone × Nat), r.zones = kept.map Prod.fst ∧ kept.length = min 12 cs.length
        ∧ (∀ e ∈ kept, cs[e.2]? = some e.1)
        ∧ kept.Pairwise (fun a b => a.1.start < b.1.start ∨ a.1.start = b.1.start ∧ a.2 < b.2)
        ∧ ∀ z n, cs[n]? = some z → (z, n) ∉ kept → ∀ e ∈ kept,
            rank z.severity < rank e.1.severity ∨ rank z.severity = rank e.1.severity
              ∧ (e.1.start < z.start ∨ e.1.start = z.start ∧ e.2 < n))
  ∧ ∀ (c : Card) (d : Word32) (th : ThermalRecord) (fs : Failsafe) (o : Origin) (i : Fin 4) (st : Strand) (upper : Int)
    (r : LengthRecord) (cs : List ClosedZone) (severe : Bool), r = lengthRecord c d th fs o i st upper → cs = candidates c upper st →
    severe = cs.any (fun z => z.severity != .minor) →
    r.lower = st.lastCut ∧ r.upper = upper ∧ r.hot = upper - st.lastCut ∧ r.digest = d ∧ r.index = st.lengthIndex
    ∧ (fs = .failsafe ∨ st.cutLost = true ∨ o = .withdrawn ∨ o = .closedRunning → r.verdict = .reject)
    ∧ (fs = .normal → st.cutLost = false → o = .closedEnding → r.verdict = .tail)
    ∧ (fs = .normal → st.cutLost = false → o = .cut →
        (upper ≤ st.nose + c.line.noseCrop → r.verdict = .nose)
        ∧ (st.nose + c.line.noseCrop < upper →
          (∀ t, st.tail = some t → t - c.line.tailCrop ≤ st.lastCut → r.verdict = .tail)
          ∧ ((∀ t, st.tail = some t → st.lastCut < t - c.line.tailCrop) →
            (st.lastCut < st.nose + c.line.noseCrop ∨ (∃ t, st.tail = some t ∧ t - c.line.tailCrop < upper) → r.verdict = .reject)
            ∧ (st.nose + c.line.noseCrop ≤ st.lastCut → (∀ t, st.tail = some t → upper ≤ t - c.line.tailCrop) →
              (severe = true → r.verdict = .reject)
              ∧ (severe = false → upper - st.lastCut < c.line.minLength → r.verdict = .short)
              ∧ (severe = false → c.line.minLength ≤ upper - st.lastCut → r.verdict = .accept)))))
    ∧ (r.reasons.failsafe = true ↔ fs = .failsafe) ∧ (r.reasons.cutLost = true ↔ st.cutLost = true)
    ∧ (r.reasons.withdrawn = true ↔ o = .withdrawn) ∧ (r.reasons.aborted = true ↔ o = .closedRunning)
    ∧ (r.reasons.cropSpan = true ↔ o = .cut ∧
        (st.lastCut < st.nose + c.line.noseCrop ∧ st.nose + c.line.noseCrop < upper
          ∨ ∃ t, st.tail = some t ∧ st.lastCut < t - c.line.tailCrop ∧ t - c.line.tailCrop < upper))
    ∧ (r.reasons.dimension = true ↔
        ∃ z ∈ cs, z.severity ≠ .minor ∧ (z.cls = .dimension ∨ z.cls = .merged ∧ z.sources.dimension = true))
    ∧ (r.reasons.blind = true ↔ ∃ z ∈ cs, z.severity ≠ .minor ∧ (z.cls = .blind ∨ z.cls = .merged ∧ z.sources.blind = true))
    ∧ (r.reasons.weld = true ↔ ∃ z ∈ cs, z.severity ≠ .minor ∧ (z.cls = .weld ∨ z.cls = .merged ∧ z.sources.weld = true))
    ∧ (r.reasons.stop = true ↔ ∃ z ∈ cs, z.severity ≠ .minor ∧ (z.cls = .stop ∨ z.cls = .merged ∧ z.sources.stop = true))

/-! ### The thermal unit -/

/-- R57 to R59: a valid sample sets the temperature, ends FALLBACK, restarts the timer and revises the band; an invalid one holds
them, or with a hold time of 0 ends LIVE; so does the hold timer's deadline. At the expiry the clock is at the deadline (the
model's: log entry 2), and an expiry of a stopped timer changes nothing (the model's: log entry 1). -/
def Obligations.SamplesHoldAndFallback : Prop :=
  (∀ (s : State) (i : Fin 4) (code : BitVec 12), s.powered = true →
    (1 ≤ code.toNat → code.toNat ≤ 4094 → exec (.pyroSample i code) s = .next { s with
        thermal := setAt s.thermal i {
          temperature := 2000 + code.toNat,
          band := if 2000 + code.toNat = s.thermal[i].temperature then s.thermal[i].band
                  else reviseBand s.store.card.thermal s.thermal[i].band (2000 + code.toNat),
          fallback := false,
          timer := if s.store.card.thermal.hold = 0 then none else some (s.now + s.store.card.thermal.hold) } })
    ∧ (code.toNat = 0 ∨ code.toNat = 4095 → 0 < s.store.card.thermal.hold ∨ s.thermal[i].fallback = true →
        exec (.pyroSample i code) s = .next s)
    ∧ (code.toNat = 0 ∨ code.toNat = 4095 → s.store.card.thermal.hold = 0 → s.thermal[i].fallback = false →
        exec (.pyroSample i code) s = .next { s with
          thermal := setAt s.thermal i
            { temperature := s.store.card.thermal.defaultTemp,
              band := reviseBand s.store.card.thermal s.thermal[i].band s.store.card.thermal.defaultTemp,
              fallback := true, timer := none },
          report := if i.val < s.store.card.strands then { s.report with flags := s.report.flags ||| 4#11 } else s.report }))
  ∧ ∀ (s : State) (i : Fin 4), s.powered = true →
      (s.thermal[i].timer = none ∨ s.thermal[i].fallback = true → exec (.holdTimerExpiry i) s = .next s)
      ∧ ∀ d, s.thermal[i].timer = some d → s.thermal[i].fallback = false →
          exec (.holdTimerExpiry i) s = .next { s with
            now := max s.now d,
            thermal := setAt s.thermal i
              { temperature := s.store.card.thermal.defaultTemp,
                band := reviseBand s.store.card.thermal s.thermal[i].band s.store.card.thermal.defaultTemp,
                fallback := true, timer := none },
            report := if i.val < s.store.card.strands then { s.report with flags := s.report.flags ||| 4#11 } else s.report }

/-- R60, R61: the revision of a band takes the first case that applies, with U3 infinite. -/
def Obligations.BandRevisionFirstCaseThatApplies : Prop :=
  ∀ (t : ThermalSection) (b : Fin 4) (temperature : Nat) (below : Nat → Nat → Prop) (smallest : Nat → Fin 4 → Prop),
    (∀ x j, below x j ↔ (j = 0 ∧ x < t.u0) ∨ (j = 1 ∧ x < t.u1) ∨ (j = 2 ∧ x < t.u2) ∨ j = 3) →
    (∀ x j, smallest x j ↔ below x j.val ∧ ∀ m, m < j.val → ¬ below x m) →
      smallest temperature (plainBand t temperature)
      ∧ (¬ below temperature b.val → smallest temperature (reviseBand t b temperature))
      ∧ (below temperature b.val → 0 < b.val → below (temperature + t.hysteresis) (b.val - 1) →
          smallest (temperature + t.hysteresis) (reviseBand t b temperature))
      ∧ (below temperature b.val → (b.val = 0 ∨ ¬ below (temperature + t.hysteresis) (b.val - 1)) → reviseBand t b temperature = b)

/-! ### The working card -/

/-- R3, R4: SET_HEAD and SET_CURVE by the first case that applies. The range clauses spell out when the fields carried are a head
record and which. The reply's layout is that of log entry 10. -/
def Obligations.SetHeadAndSetCurveFirstCaseThatApplies : Prop :=
  (∀ (r : RawHead),
    ((headRecordOf r).isSome = true ↔
      r.enabled.toNat ≤ 1 ∧ r.strand.toNat ≤ 3 ∧ r.position.toNat ≤ 3 ∧ r.mirrorColumn.toNat ≤ 1 ∧ r.mirrorRange.toNat ≤ 1
        ∧ r.swap.toNat ≤ 1 ∧ r.c0.toNat ≤ 511 ∧ 1 ≤ r.pitch.toNat ∧ r.pitch.toNat ≤ 2000 ∧ -2000000 ≤ r.offU.toInt
        ∧ r.offU.toInt ≤ 2000000 ∧ -2000000 ≤ r.offV.toInt ∧ r.offV.toInt ≤ 2000000 ∧ 1 ≤ r.minPoints.toNat
        ∧ r.minPoints.toNat ≤ 512 ∧ r.dark.toNat < r.bright.toNat)
    ∧ ∀ h, headRecordOf r = some h →
      h.enabled = decide (r.enabled = 1) ∧ h.strand.val = r.strand.toNat ∧ h.position.val = r.position.toNat
        ∧ h.mirrorColumn = decide (r.mirrorColumn = 1) ∧ h.mirrorRange = decide (r.mirrorRange = 1) ∧ h.swap = decide (r.swap = 1)
        ∧ h.c0 = r.c0.toNat ∧ h.pitch = r.pitch.toNat ∧ h.offU = r.offU.toInt ∧ h.offV = r.offV.toInt
        ∧ h.minPoints = r.minPoints.toNat ∧ h.dark = r.dark.toNat ∧ h.bright = r.bright.toNat)
  ∧ (∀ (s : State) (head : Byte) (r : RawHead), s.serves (.setHead head r) →
    (8 ≤ head.toNat → s.refuses (.setHead head r) .badValue)
    ∧ (head.toNat ≤ 7 → s.tracker.press ≠ .idle → s.refuses (.setHead head r) .running)
    ∧ (head.toNat ≤ 7 → s.tracker.press = .idle → headRecordOf r = none → s.refuses (.setHead head r) .badValue)
    ∧ ∀ (i : Fin 8) (h : HeadRecord), head.toNat = i.val → s.tracker.press = .idle → headRecordOf r = some h →
        ((h.enabled = true ∧ ∃ j, j ≠ i ∧ s.store.card.heads[j].enabled = true ∧ s.store.card.heads[j].strand = h.strand
            ∧ s.store.card.heads[j].position = h.position) → s.refuses (.setHead head r) .badValue)
        ∧ (¬ (h.enabled = true ∧ ∃ j, j ≠ i ∧ s.store.card.heads[j].enabled = true ∧ s.store.card.heads[j].strand = h.strand
            ∧ s.store.card.heads[j].position = h.position) →
          ∀ (c : Card) (e : HeadEntry), c = { s.store.card with heads := setAt s.store.card.heads i h } →
            e = (if s.store.card.heads[i].enabled = h.enabled then s.scan.heads[i]
                 else { state := if h.enabled then .ok else .offline, miss := 0, sparse := 0, lastLine := none,
                        check := s.scan.heads[i].check }) →
            exec (.setHead head r) s = .next (State.answered { s with
                store := { s.store with card := c, digest := digestOf c },
                scan := { s.scan with heads := setAt s.scan.heads i e } } (.setHead head r)
              { status := .ok, reason := none, fields := bytes32 (digestOf c) })))
  ∧ ∀ (s : State) (head : Byte) (points : List Word32), s.serves (.setCurve head points) → points.length = 17 →
    (8 ≤ head.toNat → s.refuses (.setCurve head points) .badValue)
    ∧ (head.toNat ≤ 7 → s.tracker.press ≠ .idle → s.refuses (.setCurve head points) .running)
    ∧ (head.toNat ≤ 7 → s.tracker.press = .idle → (∃ q ∈ points, q.toInt < -500000 ∨ 500000 < q.toInt) →
        s.refuses (.setCurve head points) .badValue)
    ∧ ∀ (i : Fin 8) (c : Card), head.toNat = i.val → s.tracker.press = .idle →
        (∀ q ∈ points, -500000 ≤ q.toInt ∧ q.toInt ≤ 500000) →
        c = { s.store.card with curves := setAt s.store.card.curves i (Vector.ofFn fun n => (points.getD n.val 0).toInt) } →
        exec (.setCurve head points) s = .next (State.answered { s with store := { s.store with card := c, digest := digestOf c } }
          (.setCurve head points) { status := .ok, reason := none, fields := bytes32 (digestOf c) })

/-- R13, R70 to R72, R90: SET_FEATURE and CLEAR_FEATURE by the first case that applies. The range clauses spell out when the
fields carried are a feature record, which, and when a field is brought into range. The reply's layout is that of log entry 10.
-/
def Obligations.SetFeatureAndClearFeatureFirstCaseThatApplies : Prop :=
  (∀ (r : RawFeature),
    ((featureOf r).isSome = true ↔
      r.kind.toNat ≤ 3 ∧ r.posA.toNat ≤ 3 ∧ r.firstA.toNat ≤ min r.lastA.toNat 511 ∧ 1 ≤ r.minPoints.toNat ∧ r.minPoints.toNat ≤ 512
        ∧ r.trended.toNat ≤ 1 ∧ (limitsOf r.limits).isSome = true
        ∧ (r.kind = 2 → r.posB.toNat ≤ 3 ∧ r.posB ≠ r.posA ∧ r.firstB.toNat ≤ min r.lastB.toNat 511))
    ∧ ∀ f clamped, featureOf r = some (f, clamped) →
      f.featureId = r.featureId.toNat ∧ kindByte r.kind = some f.kind ∧ f.placeA.position.val = r.posA.toNat
        ∧ f.placeA.window = { first := r.firstA.toNat, last := min r.lastA.toNat 511 } ∧ f.minPoints = r.minPoints.toNat
        ∧ f.trended = decide (r.trended = 1) ∧ (∃ b, limitsOf r.limits = some (f.limits, b))
        ∧ (r.kind ≠ 2 → f.placeB = none)
        ∧ (r.kind = 2 → ∃ p, p.position.val = r.posB.toNat ∧ p.window = { first := r.firstB.toNat, last := min r.lastB.toNat 511 }
            ∧ f.placeB = some p)
        ∧ (clamped = true ↔ 511 < r.lastA.toNat ∨ (r.kind = 2 ∧ 511 < r.lastB.toNat) ∨ r.limits.kOpen = 0 ∨ 15 < r.limits.kOpen.toNat
            ∨ r.limits.kClose = 0 ∨ 15 < r.limits.kClose.toNat))
  ∧ (∀ (s : State) (feature : Byte) (r : RawFeature), s.serves (.setFeature feature r) →
    (32 ≤ feature.toNat → s.refuses (.setFeature feature r) .badValue)
    ∧ (feature.toNat ≤ 31 → s.tracker.press ≠ .idle → s.refuses (.setFeature feature r) .running)
    ∧ (feature.toNat ≤ 31 → s.tracker.press = .idle → featureOf r = none → s.refuses (.setFeature feature r) .badValue)
    ∧ ∀ (i : Fin 32) (f : Feature) (clamped : Bool) (others : Nat), feature.toNat = i.val → s.tracker.press = .idle →
        featureOf r = some (f, clamped) →
        others = featuresInOrder.countP (fun j => j != i && (match s.store.card.features[j] with
          | some x => x.trended
          | none => false)) →
        (f.trended = true → 8 ≤ others → s.refuses (.setFeature feature r) .badValue)
        ∧ (f.trended = false ∨ others < 8 →
          ∀ c : Card, c = { s.store.card with features := setAt s.store.card.features i (some f) } →
            exec (.setFeature feature r) s = .next (State.answered { s with
                store := { s.store with card := c, digest := digestOf c },
                engine := { s.engine with
                  persistence := Vector.ofFn fun j => setAt s.engine.persistence[j] i Persistence.clear,
                  evaluation := s.engine.evaluation.map fun v => { v with track := false } } } (.setFeature feature r)
              { status := if clamped then .clamped else .ok, reason := none,
                fields := bytes32 (digestOf c) ++ (if clamped then featureFields f else []) })))
  ∧ ∀ (s : State) (feature : Byte), s.serves (.clearFeature feature) →
    (32 ≤ feature.toNat → s.refuses (.clearFeature feature) .badValue)
    ∧ (feature.toNat ≤ 31 → s.tracker.press ≠ .idle → s.refuses (.clearFeature feature) .running)
    ∧ ∀ (i : Fin 32) (c : Card), feature.toNat = i.val → s.tracker.press = .idle →
        c = { s.store.card with features := setAt s.store.card.features i none } →
        exec (.clearFeature feature) s = .next (State.answered { s with
            store := { s.store with card := c, digest := digestOf c },
            engine := { s.engine with
              persistence := Vector.ofFn fun j => setAt s.engine.persistence[j] i Persistence.clear,
              evaluation := s.engine.evaluation.map fun v => { v with track := false } } } (.clearFeature feature)
          { status := .ok, reason := none, fields := bytes32 (digestOf c) })

/-- R73, R140: SET_LIMITS by the first case that applies: refused, the limits replaced at once, or set aside in the
pending-limits list. The range clauses spell out the limits carried. The reply's layout is that of log entry 10. -/
def Obligations.SetLimitsFirstCaseThatApplies : Prop :=
  (∀ (r : RawLimits),
    ((limitsOf r).isSome = true ↔
      r.severity.toNat ≤ 1 ∧ -10000000 ≤ r.nominal.toInt ∧ r.nominal.toInt ≤ 10000000 ∧ -1000000 ≤ r.lower.toInt
        ∧ r.lower.toInt ≤ r.upper.toInt ∧ r.upper.toInt ≤ 1000000)
    ∧ ∀ l clamped, limitsOf r = some (l, clamped) →
      l.nominal = r.nominal.toInt ∧ l.lower = r.lower.toInt ∧ l.upper = r.upper.toInt
        ∧ l.kOpen = max 1 (min 15 r.kOpen.toNat) ∧ l.kClose = max 1 (min 15 r.kClose.toNat)
        ∧ l.severity = (if r.severity = 0 then .minor else .major)
        ∧ (clamped = true ↔ r.kOpen = 0 ∨ 15 < r.kOpen.toNat ∨ r.kClose = 0 ∨ 15 < r.kClose.toNat))
  ∧ ∀ (s : State) (feature : Byte) (r : RawLimits), s.serves (.setLimits feature r) →
    (32 ≤ feature.toNat → s.refuses (.setLimits feature r) .badValue)
    ∧ ∀ i : Fin 32, feature.toNat = i.val →
      (s.store.card.features[i] = none → s.refuses (.setLimits feature r) .badValue)
      ∧ (limitsOf r = none → s.refuses (.setLimits feature r) .badValue)
      ∧ ∀ f l clamped, s.store.card.features[i] = some f → limitsOf r = some (l, clamped) →
        (s.tracker.press = .idle →
          ∀ c : Card, c = { s.store.card with features := setAt s.store.card.features i (some { f with limits := l }) } →
            exec (.setLimits feature r) s = .next (State.answered { s with store := { s.store with card := c, digest := digestOf c } }
              (.setLimits feature r)
              { status := if clamped then .clamped else .ok, reason := none,
                fields := bytes32 (digestOf c) ++ (if clamped then limitsFields l else []) }))
        ∧ (s.tracker.press ≠ .idle →
          exec (.setLimits feature r) s = .next (State.answered { s with
              store := { s.store with pendingLimits := setAt s.store.pendingLimits i (some l) } } (.setLimits feature r)
            { status := .deferred, reason := none, fields := bytes32 s.store.digest ++ limitsFields l }))

/-- R62, R63: SET_THERMAL by the first case that applies, and what each strand's thermal record takes from the new section. The
reply's layout is that of log entry 10. -/
def Obligations.SetThermalFirstCaseThatApplies : Prop :=
  (∀ (r : RawThermal),
    ((thermalOf r).isSome = true ↔
      r.u0.toNat < r.u1.toNat ∧ r.u1.toNat < r.u2.toNat ∧ r.u2.toNat ≤ 6095 ∧ r.k0.toNat ≤ 5000 ∧ r.k1.toNat ≤ 5000
        ∧ r.k2.toNat ≤ 5000 ∧ r.k3.toNat ≤ 5000 ∧ 2000 ≤ r.defaultTemp.toNat ∧ r.defaultTemp.toNat ≤ 6095)
    ∧ ∀ t clamped, thermalOf r = some (t, clamped) →
      t = { u0 := r.u0.toNat, u1 := r.u1.toNat, u2 := r.u2.toNat, k0 := r.k0.toNat, k1 := r.k1.toNat, k2 := r.k2.toNat,
            k3 := r.k3.toNat, hysteresis := min 500 r.hysteresis.toNat, defaultTemp := r.defaultTemp.toNat,
            hold := min 5000 r.hold.toNat }
        ∧ (clamped = true ↔ 500 < r.hysteresis.toNat ∨ 5000 < r.hold.toNat))
  ∧ ∀ (s : State) (r : RawThermal), s.serves (.setThermal r) →
    (s.tracker.press ≠ .idle → s.refuses (.setThermal r) .running)
    ∧ (s.tracker.press = .idle → thermalOf r = none → s.refuses (.setThermal r) .badValue)
    ∧ ∀ t clamped c, s.tracker.press = .idle → thermalOf r = some (t, clamped) → c = { s.store.card with thermal := t } →
        ∃ records : Vector ThermalRecord 4,
          exec (.setThermal r) s = .next (State.answered { s with
              store := { s.store with card := c, digest := digestOf c }, thermal := records } (.setThermal r)
            { status := if clamped then .clamped else .ok, reason := none,
              fields := bytes32 (digestOf c) ++ (if clamped then thermalSectionFields t else []) })
          ∧ ∀ i : Fin 4,
              records[i].temperature = (if s.thermal[i].fallback then t.defaultTemp else s.thermal[i].temperature)
              ∧ records[i].band = plainBand t records[i].temperature
              ∧ records[i].fallback = s.thermal[i].fallback
              ∧ (t.hold = 0 → records[i].timer = none)
              ∧ (0 < t.hold → ∀ d, s.thermal[i].timer = some d → records[i].timer = some d)
              ∧ (0 < t.hold → s.thermal[i].timer = none → s.thermal[i].fallback = false → records[i].timer = some (s.now + t.hold))
              ∧ (0 < t.hold → s.thermal[i].timer = none → s.thermal[i].fallback = true → records[i].timer = none)

/-- R26, R92, R135, R137, R138: SET_LINE and SET_IDENTITY by the first case that applies, with the pitch that the generator takes
and the strands that follow the strand count. The reply's layout is that of log entry 10; a pitch changes when its value does
(log entry 18). -/
def Obligations.SetLineAndSetIdentityFirstCaseThatApplies : Prop :=
  (∀ (r : RawLine),
    ((lineOf r).isSome = true ↔
      r.dHead.toNat ≤ 100000 ∧ r.dSaw.toNat ≤ 100000 ∧ 1 ≤ r.scaleA.toNat ∧ r.scaleA.toNat ≤ 10000 ∧ 1 ≤ r.scaleB.toNat
        ∧ r.scaleB.toNat ≤ 10000 ∧ r.weldLead.toNat ≤ 50000 ∧ r.weldLength.toNat ≤ 50000 ∧ r.stopMargin.toNat ≤ 2000
        ∧ r.stopSeverity.toNat ≤ 1 ∧ r.noseCrop.toNat ≤ 20000 ∧ r.tailCrop.toNat ≤ 20000 ∧ r.minLength.toNat ≤ 100000
        ∧ r.blindSeverity.toNat ≤ 1)
    ∧ ∀ l clamped, lineOf r = some (l, clamped) →
      l = { dHead := r.dHead.toNat, dSaw := r.dSaw.toNat, scanPitch := max 1000 (min 100000 r.scanPitch.toNat),
            scaleA := r.scaleA.toNat, scaleB := r.scaleB.toNat, weldLead := r.weldLead.toNat, weldLength := r.weldLength.toNat,
            stopMargin := r.stopMargin.toNat, stopSeverity := if r.stopSeverity = 0 then .minor else .major,
            noseCrop := r.noseCrop.toNat, tailCrop := r.tailCrop.toNat, minLength := r.minLength.toNat,
            mergeGap := min 1000 r.mergeGap.toNat, blindLimit := min 255 r.blindLimit.toNat,
            blindSeverity := if r.blindSeverity = 0 then .minor else .major, lineWait := max 1 (min 100 r.lineWait.toNat) }
        ∧ (clamped = true ↔ r.scanPitch.toNat < 1000 ∨ 100000 < r.scanPitch.toNat ∨ 1000 < r.mergeGap.toNat
            ∨ 255 < r.blindLimit.toNat ∨ r.lineWait = 0 ∨ 100 < r.lineWait.toNat))
  ∧ (∀ (s : State) (r : RawLine), s.serves (.setLine r) →
    (lineOf r = none → s.refuses (.setLine r) .badValue)
    ∧ ∀ l clamped c b, lineOf r = some (l, clamped) → c = { s.store.card with line := l } →
        b = (fun digest => { status := if clamped then .clamped else .ok, reason := none,
                             fields := bytes32 digest ++ (if clamped then lineSectionFields l else []) } : Word32 → ReplyBody) →
        (s.tracker.press = .idle →
          exec (.setLine r) s = .next (State.answered { s with
              store := { s.store with card := c, digest := digestOf c },
              runout := if l.scanPitch = s.store.card.line.scanPitch then s.runout
                        else { s.runout with pitch := l.scanPitch, nextPitch := none } } (.setLine r) (b (digestOf c))))
        ∧ (s.tracker.press ≠ .idle → { l with scanPitch := s.store.card.line.scanPitch } ≠ s.store.card.line →
            s.refuses (.setLine r) .running)
        ∧ (s.tracker.press ≠ .idle → l = s.store.card.line → exec (.setLine r) s = .next (s.answered (.setLine r) (b s.store.digest)))
        ∧ (s.tracker.press ≠ .idle → { l with scanPitch := s.store.card.line.scanPitch } = s.store.card.line →
            l ≠ s.store.card.line →
            exec (.setLine r) s = .next (State.answered { s with
              store := { s.store with card := c, digest := digestOf c },
              runout := { s.runout with nextPitch := some l.scanPitch } } (.setLine r) (b (digestOf c)))))
  ∧ ∀ (s : State) (die : Word32) (revision : Word16) (alloy strands : Byte), s.serves (.setIdentity die revision alloy strands) →
    (s.tracker.press ≠ .idle → s.refuses (.setIdentity die revision alloy strands) .running)
    ∧ (s.tracker.press = .idle → strands = 0 ∨ 5 ≤ strands.toNat → s.refuses (.setIdentity die revision alloy strands) .badValue)
    ∧ ∀ c : Card, s.tracker.press = .idle → 1 ≤ strands.toNat → strands.toNat ≤ 4 →
        c = { s.store.card with die := die.toNat, revision := revision.toNat, alloy := alloy.toNat, strands := strands.toNat } →
        exec (.setIdentity die revision alloy strands) s = .next (State.answered { s with
            store := { s.store with card := c, digest := digestOf c },
            tracker := if strands.toNat = s.store.card.strands then s.tracker else { s.tracker with
              strands := Vector.ofFn fun i =>
                if s.tracker.strands[i].state = .idle ∨ s.tracker.strands[i].state = .absent then
                  { s.tracker.strands[i] with state := if i.val < strands.toNat then .idle else .absent }
                else s.tracker.strands[i] } } (.setIdentity die revision alloy strands)
          { status := .ok, reason := none, fields := bytes32 (digestOf c) })

/-! ### The card banks -/

/-- R26, R48, R63, R80, R88, R90, R92, R145, R148: BANK_LOAD by the first case that applies, and what each block takes from the
card loaded: the card whose canonical form the content is. Where it is no card's, the card is the free value of log entry 8; a load
leaves no engine SUSPENDED (log entry 14); a pitch or a strand count changes when its value does (log entry 18). -/
def Obligations.BankLoadFirstCaseThatApplies : Prop :=
  ∀ (s : State) (bank : Byte), s.serves (.bankLoad bank) →
    (8 ≤ bank.toNat → s.refuses (.bankLoad bank) .badValue)
    ∧ (bank.toNat ≤ 7 → s.tracker.press ≠ .idle → s.refuses (.bankLoad bank) .running)
    ∧ ∀ i : Fin 8, bank.toNat = i.val → s.tracker.press = .idle → (∀ j, s.store.engine ≠ .suspended j) →
      ((∃ j, s.store.engine = .storing j ∧ j.bank = i) → s.refuses (.bankLoad bank) .busy)
      ∧ ((∀ j, s.store.engine = .storing j → j.bank ≠ i) →
        (s.store.banks[i].valid = false → s.refuses (.bankLoad bank) .bankEmpty)
        ∧ (s.store.banks[i].valid = true → s.store.banks[i].content.crc ≠ s.store.banks[i].digest →
            exec (.bankLoad bank) s = .next (State.answered { s with report := { s.report with flags := s.report.flags ||| 64#11 } }
              (.bankLoad bank) { status := .refused, reason := some .bankCrc, fields := [] }))
        ∧ (s.store.banks[i].valid = true → s.store.banks[i].content.crc = s.store.banks[i].digest →
            ∃ (c : Card) (heads : Vector HeadEntry 8) (records : Vector ThermalRecord 4),
              (∀ held, s.store.banks[i].content = .card held → c = held)
              ∧ (∀ held : Card, held.inRange = true → s.store.banks[i].content = .bytes (canonical held) → c = held)
              ∧ exec (.bankLoad bank) s = .next (State.answered { s with
                  store := { s.store with card := c, digest := s.store.banks[i].digest, pendingLimits := Vector.replicate 32 none },
                  scan := { s.scan with heads := heads },
                  runout := if s.store.card.line.scanPitch = c.line.scanPitch then s.runout
                            else { s.runout with pitch := c.line.scanPitch, nextPitch := none },
                  thermal := records,
                  engine := { s.engine with
                    persistence := Vector.replicate 4 (Vector.replicate 32 Persistence.clear), last := Vector.replicate 4 none,
                    evaluation := s.engine.evaluation.map fun v => { v with track := false } },
                  tracker := if s.store.card.strands = c.strands then s.tracker else { s.tracker with
                    strands := Vector.ofFn fun i =>
                      if s.tracker.strands[i].state = .idle ∨ s.tracker.strands[i].state = .absent then
                        { s.tracker.strands[i] with state := if i.val < c.strands then .idle else .absent }
                      else s.tracker.strands[i] },
                  report := { s.report with latches := Vector.replicate 4 none } } (.bankLoad bank)
                { status := .ok, reason := none,
                  fields := bytes32 s.store.banks[i].digest ++ le32 c.die ++ le16 c.revision })
              ∧ (∀ h : Fin 8,
                  (s.store.card.heads[h].enabled = c.heads[h].enabled → heads[h] = s.scan.heads[h])
                  ∧ (s.store.card.heads[h].enabled ≠ c.heads[h].enabled → heads[h] =
                      { state := if c.heads[h].enabled then .ok else .offline, miss := 0, sparse := 0, lastLine := none,
                        check := s.scan.heads[h].check }))
              ∧ ∀ k : Fin 4,
                  records[k].temperature = (if s.thermal[k].fallback then c.thermal.defaultTemp else s.thermal[k].temperature)
                  ∧ records[k].band = plainBand c.thermal records[k].temperature
                  ∧ records[k].fallback = s.thermal[k].fallback
                  ∧ (c.thermal.hold = 0 → records[k].timer = none)
                  ∧ (0 < c.thermal.hold → ∀ d, s.thermal[k].timer = some d → records[k].timer = some d)
                  ∧ (0 < c.thermal.hold → s.thermal[k].timer = none → s.thermal[k].fallback = false →
                      records[k].timer = some (s.now + c.thermal.hold))
                  ∧ (0 < c.thermal.hold → s.thermal[k].timer = none → s.thermal[k].fallback = true → records[k].timer = none)))

/-- R146, R147: BANK_STORE by the first case that applies, and the end of a store in its two outcomes. What the memory holds at
the end is the command's operand (the model's: log entry 15), and an end with no store in flight changes nothing (the model's: log
entry 1). -/
def Obligations.BankStoreRunsToItsOutcome : Prop :=
  (∀ (s : State) (bank : Byte), s.serves (.bankStore bank) →
    (8 ≤ bank.toNat → s.refuses (.bankStore bank) .badValue)
    ∧ ∀ i : Fin 8, bank.toNat = i.val →
      (s.store.banks[i].lock = .held ∨ s.store.banks[i].lock = .fixed →
        exec (.bankStore bank) s = .next (State.answered { s with report := { s.report with flags := s.report.flags ||| 128#11 } }
          (.bankStore bank) { status := .refused, reason := some .isProtected, fields := [] }))
      ∧ (s.store.banks[i].lock = .unlocked → s.store.engine ≠ .idle → s.refuses (.bankStore bank) .busy)
      ∧ (s.store.banks[i].lock = .unlocked → s.store.engine = .idle →
        exec (.bankStore bank) s = .next (State.answered { s with
            store := { s.store with
              banks := setAt s.store.banks i { s.store.banks[i] with
                valid := false, die := s.store.card.die, revision := s.store.card.revision, digest := s.store.digest,
                storeCount := min 65535 (s.store.banks[i].storeCount + 1) },
              engine := .storing { bank := i, copy := s.store.card, digest := s.store.digest } } } (.bankStore bank)
          { status := .ok, reason := none, fields := [] })))
  ∧ ∀ (s : State) (found : StoreRead), s.powered = true →
    ((∀ j, s.store.engine ≠ .storing j) → exec (.bankStoreEnd found) s = .next s)
    ∧ ∀ (j : StoreJob) (content : BankContent), s.store.engine = .storing j →
        content = (match found with
          | .copy => .card j.copy
          | .other bs => .bytes bs
          | .incomplete bs => .bytes bs) →
        ((∀ bs, found ≠ .incomplete bs) → content.crc = j.digest →
          exec (.bankStoreEnd found) s = .next { s with
            store := { s.store with
              banks := setAt s.store.banks j.bank { s.store.banks[j.bank] with content := content, valid := true },
              engine := .idle, lastOutcome := .done j.bank } })
        ∧ ((∃ bs, found = .incomplete bs) ∨ content.crc ≠ j.digest →
          exec (.bankStoreEnd found) s = .next { s with
            store := { s.store with
              banks := setAt s.store.banks j.bank { s.store.banks[j.bank] with content := content, valid := false },
              engine := .idle, lastOutcome := .fail j.bank },
            report := { s.report with flags := s.report.flags ||| 64#11 } })

/-- R148 to R150: BANK_LOCK and SET_BOOT by the first case that applies; a store in flight is storing again when they answer. A
store is SUSPENDED inside a step only (log entry 14). -/
def Obligations.BankLockAndSetBootFirstCaseThatApplies : Prop :=
  (∀ (s : State) (bank mode : Byte), s.serves (.bankLock bank mode) →
    (8 ≤ bank.toNat ∨ 3 ≤ mode.toNat → s.refuses (.bankLock bank mode) .badValue)
    ∧ ∀ (i : Fin 8) (l : Lock), bank.toNat = i.val →
      (mode = 0 ∧ l = .unlocked ∨ mode = 1 ∧ l = .held ∨ mode = 2 ∧ l = .fixed) → (∀ j, s.store.engine ≠ .suspended j) →
      ((∃ j, s.store.engine = .storing j ∧ j.bank = i) → s.refuses (.bankLock bank mode) .busy)
      ∧ ((∀ j, s.store.engine = .storing j → j.bank ≠ i) →
        ((s.store.banks[i].lock = .held ∧ l = .unlocked ∨ s.store.banks[i].lock = .fixed ∧ l ≠ .fixed) →
          exec (.bankLock bank mode) s = .next (State.answered { s with report := { s.report with flags := s.report.flags ||| 128#11 } }
            (.bankLock bank mode) { status := .refused, reason := some .isProtected, fields := [] }))
        ∧ (s.store.banks[i].lock = .unlocked ∨ (s.store.banks[i].lock = .held ∧ l ≠ .unlocked) ∨ l = .fixed →
          exec (.bankLock bank mode) s = .next (State.answered { s with
              store := { s.store with banks := setAt s.store.banks i { s.store.banks[i] with lock := l } } } (.bankLock bank mode)
            { status := .ok, reason := none, fields := [mode] }))))
  ∧ ∀ (s : State) (bank : Byte), s.serves (.setBoot bank) → (∀ j, s.store.engine ≠ .suspended j) →
    (8 ≤ bank.toNat → bank ≠ 0xFF → s.refuses (.setBoot bank) .badValue)
    ∧ ∀ b : Option (Fin 8), (bank = 0xFF ∧ b = none ∨ ∃ i, b = some i ∧ bank.toNat = i.val) →
        exec (.setBoot bank) s = .next (State.answered { s with store := { s.store with boot := b } } (.setBoot bank)
          { status := .ok, reason := none, fields := [] })

/-! ### The press -/

/-- R142: readiness is 0 where the six checks pass, and else the number of the first that fails. -/
def Obligations.ReadinessIsTheFirstCheckThatFails : Prop :=
  ∀ (c : Card) (passes : Nat → Prop),
    (passes 1 ↔ 1 ≤ c.strands) →
    (passes 2 ↔ ∀ i : Fin 4, i.val < c.strands → ∃ h, c.heads[(h : Fin 8)].enabled = true ∧ c.heads[h].strand = i) →
    (passes 3 ↔ ∃ f, (c.features[(f : Fin 32)]).isSome = true) →
    (passes 4 ↔ ∀ (f : Fin 32) (x : Feature) (p : Place), c.features[f] = some x → (p = x.placeA ∨ x.placeB = some p) →
      ∀ i : Fin 4, i.val < c.strands →
        ∃ h, c.heads[(h : Fin 8)].enabled = true ∧ c.heads[h].strand = i ∧ c.heads[h].position = p.position) →
    (passes 5 ↔ c.line.dHead + 2000 ≤ c.line.dSaw) →
    (passes 6 ↔ c.thermal.u0 < c.thermal.u1 ∧ c.thermal.u1 < c.thermal.u2) →
      (readiness c = 0 ↔ ∀ n, 1 ≤ n → n ≤ 6 → passes n)
      ∧ ∀ n, 1 ≤ n → n ≤ 6 → (readiness c = n ↔ ¬ passes n ∧ ∀ m, 1 ≤ m → m < n → passes m)

/-- R20, R23, R32, R39, R75, R80, R88, R92, R94, R95: RUN_START by the first case that applies; accepted, all that it sets, and
nothing else. The engine's events that the tracker has not yet taken are withdrawn (log entry 5), and lost-cut reports still on
their way mark no strand of the new run (log entry 6). -/
def Obligations.RunStartFirstCaseThatApplies : Prop :=
  ∀ s : State, s.serves .runStart →
    (s.tracker.press ≠ .idle → s.refuses .runStart .state)
    ∧ (s.tracker.press = .idle → s.scan.check.isSome = true → s.refuses .runStart .busy)
    ∧ (s.tracker.press = .idle → s.scan.check = none → readiness s.store.card ≠ 0 →
        exec .runStart s = .next (s.answered .runStart
          { status := .refused, reason := some .notReady, fields := [byte (readiness s.store.card)] }))
    ∧ (s.tracker.press = .idle → s.scan.check = none → readiness s.store.card = 0 →
        exec .runStart s = .next (State.answered { s with
            runout := { s.runout with
              deficitA := 0, deficitB := 0, travel := 0, pitch := s.store.card.line.scanPitch, nextPitch := none, remainder := 0,
              cuts := [] },
            scan := { s.scan with skips := none },
            engine := {
              stale := Vector.ofFn fun i => s.engine.stale[i] || (match s.scan.slots[i] with
                | some k => !k.manual
                | none => false),
              persistence := Vector.replicate 4 (Vector.replicate 32 Persistence.clear), last := Vector.replicate 4 none,
              evaluation := s.engine.evaluation.map fun v => { v with track := false }, sent := [] },
            tracker := {
              press := .running,
              strands := Vector.ofFn fun i => Strand.fresh (if i.val < s.store.card.strands then .nose else .absent) 1,
              reports := 0, reportsDue := 0 },
            report := { s.report with latches := Vector.replicate 4 none } } .runStart
          { status := .ok, reason := none, fields := [0, 0, 0, 0, 0, 1] }))

/-- R94, R96, R97, R106, R108, R109: BILLET_JOIN, and STOP in RUNNING: the zone that each strand in NOSE or RUNNING is offered, the
strands that admit it, the counts, and the reply. -/
def Obligations.BilletJoinAndStopAddPredictedZones : Prop :=
  ∀ (s : State) (cmd : Instr) (code : Byte) (p x e : Int) (after : Press) (line : LineSection) (coming : Fin 4 → Bool)
    (admitted late : Fin 4 → Bool) (grown : Strand → Strand) (zone : Strand → ClosedZone), s.serves cmd →
    p = ((s.runout.travel / 1000 : Nat) : Int) → line = s.store.card.line →
    (cmd = .billetJoin ∧ (s.tracker.press = .running ∨ s.tracker.press = .stopped) ∧ after = s.tracker.press ∧ code = 1
        ∧ x = p + line.weldLead ∧ e = p + line.weldLead + (if line.weldLength = 0 then 1 else line.weldLength)
        ∧ (∀ st, grown st = { st with billet := min 65535 (st.billet + 1) })
        ∧ (∀ st, zone st = { number := st.nextZone, cls := .weld, feature := none, severity := .cutout, start := max x st.lastCut,
                             finish := e, sides := none, worst := none, billet := some (min 65535 (st.billet + 1)),
                             sources := { dimension := false, blind := false, weld := true, stop := false } })
      ∨ cmd = .stop ∧ s.tracker.press = .running ∧ after = .stopped ∧ code = 2
        ∧ x = p - line.stopMargin ∧ e = p + line.stopMargin + 1 ∧ (∀ st, grown st = st)
        ∧ (∀ st, zone st = { number := st.nextZone, cls := .stop, feature := none, severity := line.stopSeverity.severity,
                             start := max x st.lastCut, finish := e, sides := none, worst := none, billet := none,
                             sources := { dimension := false, blind := false, weld := false, stop := true } })) →
    (∀ i, coming i = true ↔ s.tracker.strands[i].state = .nose ∨ s.tracker.strands[i].state = .running) →
    (∀ i, admitted i = true ↔ coming i = true ∧ s.tracker.strands[i].lastCut < e) →
    (∀ i, late i = true ↔ coming i = true ∧ (e ≤ s.tracker.strands[i].lastCut
      ∨ x < s.tracker.strands[i].lastCut ∧ s.tracker.strands[i].nose < s.tracker.strands[i].lastCut)) →
      ∃ (strands : Vector Strand 4) (r : ReportUnit),
        exec cmd s = .next (State.answered { s with
            tracker := { s.tracker with press := after, strands := strands },
            report := { s.report with counters := r.counters, flags := r.flags } } cmd
          { status := .ok, reason := none, fields := code :: leInt p ++ [pressCode after] })
        ∧ (∀ i, admitted i = false → strands[i] = s.tracker.strands[i])
        ∧ (∀ (i : Fin 4) (zs : List ClosedZone), admitted i = true →
            zs = insertZone (zone s.tracker.strands[i]) s.tracker.strands[i].closed →
            strands[i] = { grown s.tracker.strands[i] with
              nextZone := if s.tracker.strands[i].nextZone < 65535 then s.tracker.strands[i].nextZone + 1 else 1,
              closed := if zs.length ≤ 48 then zs else coarsen zs })
        ∧ (s.CountsSound → r.counters = { s.report.counters with
            lateResult := min 65535 (s.report.counters.lateResult + strandsInOrder.countP late),
            coarsening := min 65535 (s.report.counters.coarsening
              + strandsInOrder.countP fun i => admitted i && decide (48 ≤ s.tracker.strands[i].closed.length)) })
        ∧ r.flags = s.report.flags ||| (if (∃ i, late i = true) then 256#11 else 0#11)
            ||| (if (∃ i, admitted i = true ∧ 48 ≤ s.tracker.strands[i].closed.length) then 8#11 else 0#11)

/-- R94, R96 to R98: BILLET_JOIN, STOP, RESUME and RUN_END where the press is IDLE or ENDING; STOP in STOPPED, RESUME and RUN_END
where they are accepted. -/
def Obligations.StopResumeAndRunEndMoveThePress : Prop :=
  (∀ (s : State) (c : Instr), s.serves c → (c = .billetJoin ∨ c = .stop ∨ c = .resume ∨ c = .runEnd) →
    (s.tracker.press = .idle ∨ s.tracker.press = .ending) → s.refuses c .state)
  ∧ ∀ (s : State) (p : Int), p = ((s.runout.travel / 1000 : Nat) : Int) →
    (s.serves .stop → s.tracker.press = .stopped → exec .stop s = .next (s.answered .stop
      { status := .ok, reason := none, fields := 2 :: leInt p ++ [2] }))
    ∧ (s.serves .resume → (s.tracker.press = .running ∨ s.tracker.press = .stopped) →
      exec .resume s = .next (State.answered { s with tracker := { s.tracker with press := .running } } .resume
        { status := .ok, reason := none, fields := 3 :: leInt p ++ [1] }))
    ∧ (s.serves .runEnd → (s.tracker.press = .running ∨ s.tracker.press = .stopped) →
      exec .runEnd s = .next (State.answered { s with tracker := { s.tracker with
          press := .ending,
          strands := Vector.ofFn fun i =>
            if s.tracker.strands[i].state = .nose ∨ s.tracker.strands[i].state = .running then
              { s.tracker.strands[i] with
                state := .tailing, tail := some p, closed := s.tracker.strands[i].closed.filter fun z => decide (z.start < p) }
            else s.tracker.strands[i] } } .runEnd
        { status := .ok, reason := none, fields := 4 :: leInt p ++ [3] }))

/-- R93, R99 to R101: RUN_CLOSE and WITHDRAW by the first case that applies: the final lengths, the strands, the press and the
pending limits. -/
def Obligations.RunCloseAndWithdrawFormFinalLengths : Prop :=
  ∀ (s : State) (h : Int) (upper : Fin 4 → Int) (o : Origin) (record : Origin → Fin 4 → LengthRecord),
    h = ((s.runout.travel / 1000 : Nat) : Int) - (s.store.card.line.dHead : Int) →
    (∀ i, upper i = (match s.tracker.strands[i].tail with
      | some t => min t h
      | none => h)) →
    o = (if s.tracker.press = .ending then .closedEnding else .closedRunning) →
    (∀ o i, record o i = lengthRecord s.store.card s.store.digest s.thermal[i] s.verdict.failsafe o i s.tracker.strands[i] (upper i)) →
      (s.serves .runClose →
        (s.tracker.press = .idle → s.refuses .runClose .state)
        ∧ (s.tracker.press ≠ .idle → ∃ (strands : Vector Strand 4) (last : Vector (Option Verdict) 4),
            exec .runClose s = .next (State.answered { s with
                tracker := { s.tracker with press := .idle, strands := strands },
                verdict := { s.verdict with last := last },
                report := (strandsInOrder.filter fun i => s.tracker.strands[i].active
                  && decide (s.tracker.strands[i].lastCut < upper i)).foldl (fun u i => u.take (record o i)) s.report,
                store := s.store.applyPending } .runClose { status := .ok, reason := none, fields := [] })
            ∧ ∀ i : Fin 4,
                (s.tracker.strands[i].active = false → strands[i] = s.tracker.strands[i] ∧ last[i] = s.verdict.last[i])
                ∧ (s.tracker.strands[i].active = true → upper i ≤ s.tracker.strands[i].lastCut →
                    strands[i] = s.tracker.strands[i].ended ∧ last[i] = s.verdict.last[i])
                ∧ (s.tracker.strands[i].active = true → s.tracker.strands[i].lastCut < upper i →
                    strands[i] = (s.tracker.strands[i].advance s.store.card (upper i)).ended
                      ∧ last[i] = some (record o i).verdict)))
      ∧ ∀ strand : Byte, s.serves (.withdraw strand) →
        (4 ≤ strand.toNat → s.refuses (.withdraw strand) .badValue)
        ∧ ∀ i : Fin 4, strand.toNat = i.val →
          (s.tracker.strands[i].active = false → s.refuses (.withdraw strand) .state)
          ∧ (s.tracker.strands[i].active = true →
            ∃ (st : Strand) (last : Option Verdict) (formed : Bool),
              (formed = true ↔ s.tracker.strands[i].lastCut < upper i)
              ∧ (formed = true → st = (s.tracker.strands[i].advance s.store.card (upper i)).ended
                  ∧ last = some (record .withdrawn i).verdict)
              ∧ (formed = false → st = s.tracker.strands[i].ended ∧ last = s.verdict.last[i])
              ∧ exec (.withdraw strand) s = .next (State.answered { s with
                  tracker := { s.tracker with
                    press := if (∃ j, j ≠ i ∧ s.tracker.strands[(j : Fin 4)].active = true) then s.tracker.press else .idle,
                    strands := setAt s.tracker.strands i st },
                  verdict := { s.verdict with last := setAt s.verdict.last i last },
                  report := if formed then s.report.take (record .withdrawn i) else s.report,
                  store := if (∃ j, j ≠ i ∧ s.tracker.strands[(j : Fin 4)].active = true) then s.store else s.store.applyPending }
                (.withdraw strand) { status := .ok, reason := none, fields := [if formed then 1 else 0] }))

/-! ### Reports, latches, flags -/

/-- R170, R171: GAUGE_LATCH fills the empty latches that it names from the last results; GAUGE_READ returns the copy and empties
the latch, or returns the live record; and every field of the record at its place among the 299 bytes. The manual byte of an empty
record is the model's choice (log entry 26). -/
def Obligations.GaugeLatchesHoldOneCopy : Prop :=
  (∀ (s : State) (mask : Byte), s.serves (.gaugeLatch mask) →
    (16 ≤ mask.toNat → s.refuses (.gaugeLatch mask) .badValue)
    ∧ (mask.toNat ≤ 15 → ∃ filled : Byte,
        exec (.gaugeLatch mask) s = .next (State.answered { s with report := { s.report with
            latches := Vector.ofFn fun i => if filled.getLsbD i.val then s.engine.last[i] else s.report.latches[i] } }
          (.gaugeLatch mask) { status := .ok, reason := none, fields := [filled] })
        ∧ filled.toNat ≤ 15
        ∧ ∀ i : Fin 4, filled.getLsbD i.val = true ↔
            mask.getLsbD i.val = true ∧ s.report.latches[i] = none ∧ s.engine.last[i] ≠ none))
  ∧ (∀ (s : State) (strand : Byte), s.serves (.gaugeRead strand) →
    (4 ≤ strand.toNat → s.refuses (.gaugeRead strand) .badValue)
    ∧ ∀ i : Fin 4, strand.toNat = i.val →
      (∀ r, s.report.latches[i] = some r →
        exec (.gaugeRead strand) s = .next (State.answered { s with report := { s.report with
            latches := setAt s.report.latches i none } } (.gaugeRead strand)
          { status := .ok, reason := none, fields := gaugeFields (some r) }))
      ∧ (s.report.latches[i] = none →
        exec (.gaugeRead strand) s = .next (s.answered (.gaugeRead strand)
          { status := .ok, reason := some .notLatched, fields := gaugeFields s.engine.last[i] })))
  ∧ ∀ (last : Option LastResults) (p : List Byte), p = gaugeFields last →
      p.length = 299
      ∧ (last = none → (∀ n, n < 11 → numberAt p n 1 = 0)
          ∧ ∀ f : Fin 32, numberAt p (11 + 9 * f.val) 1 = 255 ∧ numberAt p (12 + 9 * f.val) 4 = 0 ∧ numberAt p (16 + 9 * f.val) 4 = 0)
      ∧ ∀ r, last = some r →
          numberAt p 0 1 = 1 ∧ numberAt p 1 2 = r.number % 65536 ∧ numberAt p 3 4 = signed32 r.x
          ∧ numberAt p 7 2 = r.temperature % 65536 ∧ numberAt p 9 1 = r.band.val ∧ numberAt p 10 1 = r.manual.toNat
          ∧ ∀ f : Fin 32,
              (r.features[f] = none → numberAt p (11 + 9 * f.val) 1 = 255)
              ∧ (r.features[f] = some .missing → numberAt p (11 + 9 * f.val) 1 = 3)
              ∧ (r.features[f] = none ∨ r.features[f] = some .missing →
                  numberAt p (12 + 9 * f.val) 4 = 0 ∧ numberAt p (16 + 9 * f.val) 4 = 0)
              ∧ ∀ cls h w, r.features[f] = some (.found cls h w) →
                  numberAt p (11 + 9 * f.val) 1 = [Class.inside, .low, .high].idxOf cls
                    ∧ numberAt p (12 + 9 * f.val) 4 = signed32 h ∧ numberAt p (16 + 9 * f.val) 4 = signed32 w

/-- R169: REPORT_DROP by the first case that applies; nothing else changes. -/
def Obligations.ReportDropFirstCaseThatApplies : Prop :=
  ∀ (s : State) (n : Word16), s.serves (.reportDrop n) →
    (s.report.queue = [] → s.refuses (.reportDrop n) .state)
    ∧ (∀ r rest, s.report.queue = r :: rest → r.sequence ≠ n.toNat → s.refuses (.reportDrop n) .sequence)
    ∧ ∀ r rest, s.report.queue = r :: rest → r.sequence = n.toNat →
        exec (.reportDrop n) s = .next (State.answered { s with report := { s.report with queue := rest } } (.reportDrop n)
          { status := .ok, reason := none, fields := [byte rest.length] })

/-- R173: CLEAR_FLAGS clears the flags that the mask sets, bits 11 to 15 of the mask not examined, and with the selector yes the
tally; the reply carries the flags after the clear and the tally before it. -/
def Obligations.ClearFlagsClearsWhatTheMaskNames : Prop :=
  ∀ (s : State) (mask : Word16) (tally : Byte), s.serves (.clearFlags mask tally) →
    (2 ≤ tally.toNat → s.refuses (.clearFlags mask tally) .badValue)
    ∧ (tally.toNat ≤ 1 → ∃ flags : BitVec 11,
        (∀ b, b < 11 → flags.getLsbD b = (s.report.flags.getLsbD b && !mask.getLsbD b))
        ∧ exec (.clearFlags mask tally) s = .next (State.answered { s with report := { s.report with
            flags := flags,
            tally := if tally = 1 then { lengths := 0, rejects := 0, millis := 0 } else s.report.tally } } (.clearFlags mask tally)
          { status := .ok, reason := none,
            fields := bytes16 (flags.setWidth 16) ++ le32 s.report.tally.lengths ++ le32 s.report.tally.rejects
              ++ le32 s.report.tally.millis }))

/-- R129, R174 to R176: CLEAR_COUNTERS and SET_ALARM_MASK, and the levels of the ALARM and REJECT lines of a part with supply. -/
def Obligations.CountersAlarmMaskAndOutputLines : Prop :=
  (∀ s : State, s.serves .clearCounters →
    exec .clearCounters s = .next (State.answered { s with report := { s.report with counters := Counters.zero } } .clearCounters
      { status := .ok, reason := none, fields := counterFields s.report.counters }))
  ∧ (∀ (s : State) (mask : Word16), s.serves (.setAlarmMask mask) →
    ∃ m : BitVec 11, (∀ b, b < 11 → m.getLsbD b = mask.getLsbD b)
      ∧ exec (.setAlarmMask mask) s = .next (State.answered { s with report := { s.report with mask := m } } (.setAlarmMask mask)
        { status := .ok, reason := none, fields := bytes16 (m.setWidth 16) }))
  ∧ ∀ s : State, s.powered = true →
    (s.alarmLine = true ↔ s.verdict.failsafe = .failsafe
      ∨ ∃ b, b < 11 ∧ s.report.flags.getLsbD b = true ∧ s.report.mask.getLsbD b = false)
    ∧ ∀ i : Fin 4, s.rejectLine i = true ↔ s.verdict.failsafe = .failsafe ∨ s.verdict.last[i] ≠ some .accept

/-- R130, R131, R160 to R162: SET_WATCHDOG, the watchdog's deadline, FORCE_FAILSAFE, CLEAR_FAILSAFE, and RESTART, whose reply
alone it forms. At the expiry the clock is at the deadline (the model's: log entry 2), and an expiry of a stopped timer changes
nothing (the model's: log entry 1). -/
def Obligations.WatchdogFailsafeAndRestart : Prop :=
  (∀ (s : State) (w : Word16) (n : Nat), s.serves (.setWatchdog w) →
    (w.toNat = 0 ∧ n = 0 ∨ 1 ≤ w.toNat ∧ w.toNat ≤ 49 ∧ n = 50 ∨ 50 ≤ w.toNat ∧ w.toNat ≤ 60000 ∧ n = w.toNat
      ∨ 60000 < w.toNat ∧ n = 60000) →
      exec (.setWatchdog w) s = .next (State.answered { s with link := { s.link with
          interval := n, deadline := if n = 0 then none else some (s.now + n) } } (.setWatchdog w)
        { status := if n = w.toNat then .ok else .clamped, reason := none, fields := le16 n }))
  ∧ ∀ s : State,
    (s.powered = true → s.link.deadline = none → exec .watchdogExpiry s = .next s)
    ∧ (∀ d, s.powered = true → s.link.deadline = some d → exec .watchdogExpiry s = .next { s with
        now := max s.now d, link := { s.link with deadline := none }, verdict := { s.verdict with failsafe := .failsafe } })
    ∧ (s.serves .forceFailsafe → exec .forceFailsafe s = .next (State.answered { s with
        verdict := { s.verdict with failsafe := .failsafe } } .forceFailsafe { status := .ok, reason := none, fields := [1] }))
    ∧ (s.serves .clearFailsafe → exec .clearFailsafe s = .next (State.answered { s with
        verdict := { s.verdict with failsafe := .normal } } .clearFailsafe { status := .ok, reason := none, fields := [0] }))
    ∧ (s.serves .restart → exec .restart s = .next (s.answered .restart { status := .ok, reason := none, fields := [] }))

end
end

