-- ==== Sys2Proof/Laws/Bytes.lean ====
section
/-! SUPPORT. The little-endian codings read back what they write, and the evaluator's helper of the check codes is plain
application. -/

namespace Sys2Proof.Machine

set_option Elab.async false

@[simp] theorem forced_eq {w : Nat} {α : Type} (c : BitVec w) (k : BitVec w → α) : forced c k = k c := by
  unfold forced
  split
  · rename_i h; rw [show c = BitVec.ofNat w 0 from BitVec.eq_of_toNat_eq (by simp [h])]
  · rename_i n h
    rw [show c = BitVec.ofNat w (Nat.succ n) from BitVec.eq_of_toNat_eq (by
      have := c.isLt
      simp only [BitVec.toNat_ofNat]
      rw [Nat.mod_eq_of_lt] <;> omega)]

/-- Two bytes of a word, joined again. -/
theorem word16_join (w : Word16) : w.extractLsb' 8 8 ++ w.extractLsb' 0 8 = w := by
  apply BitVec.eq_of_getElem_eq
  intro i hi
  rw [BitVec.getElem_append]
  split
  · simp only [BitVec.getElem_extractLsb', Nat.zero_add, BitVec.getLsbD_eq_getElem hi]
  · simp only [BitVec.getElem_extractLsb', BitVec.getLsbD_eq_getElem hi, show 8 + (i - 8) = i by omega]

/-- Four bytes of a word, joined again. -/
theorem word32_join (w : Word32) :
    w.extractLsb' 24 8 ++ w.extractLsb' 16 8 ++ w.extractLsb' 8 8 ++ w.extractLsb' 0 8 = w := by
  apply BitVec.eq_of_getElem_eq
  intro i hi
  simp only [BitVec.getElem_append, BitVec.getElem_extractLsb']
  split
  · simp only [Nat.zero_add, BitVec.getLsbD_eq_getElem hi]
  · split
    · simp only [show 8 + (i - 8) = i by omega, BitVec.getLsbD_eq_getElem hi]
    · split
      · simp only [show 16 + (i - 8 - 8) = i by omega, BitVec.getLsbD_eq_getElem hi]
      · simp only [show 24 + (i - 8 - 8 - 8) = i by omega, BitVec.getLsbD_eq_getElem hi]

@[simp] theorem bytes16_length (w : Word16) : (bytes16 w).length = 2 := rfl

@[simp] theorem bytes32_length (w : Word32) : (bytes32 w).length = 4 := rfl

@[simp] theorem byteAt_head (b : Byte) (p : List Byte) : byteAt (b :: p) 0 = b := rfl

@[simp] theorem byteAt_cons (b : Byte) (p : List Byte) {i : Nat} (h : 1 ≤ i) : byteAt (b :: p) i = byteAt p (i - 1) := by
  obtain ⟨j, rfl⟩ := Nat.exists_eq_add_of_le h
  rw [Nat.add_comm]; rfl

@[simp] theorem byteAt_bytes16 (w : Word16) (p : List Byte) {i : Nat} (h : 2 ≤ i) : byteAt (bytes16 w ++ p) i = byteAt p (i - 2) := by
  obtain ⟨j, rfl⟩ := Nat.exists_eq_add_of_le h
  rw [Nat.add_comm]; rfl

@[simp] theorem byteAt_bytes32 (w : Word32) (p : List Byte) {i : Nat} (h : 4 ≤ i) : byteAt (bytes32 w ++ p) i = byteAt p (i - 4) := by
  obtain ⟨j, rfl⟩ := Nat.exists_eq_add_of_le h
  rw [Nat.add_comm]; rfl

@[simp] theorem word16At_head (w : Word16) (p : List Byte) : word16At (bytes16 w ++ p) 0 = w := word16_join w

@[simp] theorem word16At_alone (w : Word16) : word16At (bytes16 w) 0 = w := word16_join w

@[simp] theorem word32At_head (w : Word32) (p : List Byte) : word32At (bytes32 w ++ p) 0 = w := word32_join w

@[simp] theorem word32At_alone (w : Word32) : word32At (bytes32 w) 0 = w := word32_join w

@[simp] theorem word16At_cons (b : Byte) (p : List Byte) {i : Nat} (h : 1 ≤ i) : word16At (b :: p) i = word16At p (i - 1) := by
  obtain ⟨j, rfl⟩ := Nat.exists_eq_add_of_le h
  rw [Nat.add_comm]; rfl

@[simp] theorem word32At_cons (b : Byte) (p : List Byte) {i : Nat} (h : 1 ≤ i) : word32At (b :: p) i = word32At p (i - 1) := by
  obtain ⟨j, rfl⟩ := Nat.exists_eq_add_of_le h
  rw [Nat.add_comm]; rfl

@[simp] theorem word16At_bytes16 (w : Word16) (p : List Byte) {i : Nat} (h : 2 ≤ i) :
    word16At (bytes16 w ++ p) i = word16At p (i - 2) := by
  obtain ⟨j, rfl⟩ := Nat.exists_eq_add_of_le h
  rw [Nat.add_comm]; rfl

@[simp] theorem word32At_bytes16 (w : Word16) (p : List Byte) {i : Nat} (h : 2 ≤ i) :
    word32At (bytes16 w ++ p) i = word32At p (i - 2) := by
  obtain ⟨j, rfl⟩ := Nat.exists_eq_add_of_le h
  rw [Nat.add_comm]; rfl

@[simp] theorem word16At_bytes32 (w : Word32) (p : List Byte) {i : Nat} (h : 4 ≤ i) :
    word16At (bytes32 w ++ p) i = word16At p (i - 4) := by
  obtain ⟨j, rfl⟩ := Nat.exists_eq_add_of_le h
  rw [Nat.add_comm]; rfl

@[simp] theorem word32At_bytes32 (w : Word32) (p : List Byte) {i : Nat} (h : 4 ≤ i) :
    word32At (bytes32 w ++ p) i = word32At p (i - 4) := by
  obtain ⟨j, rfl⟩ := Nat.exists_eq_add_of_le h
  rw [Nat.add_comm]; rfl

end Sys2Proof.Machine
end

