-- ==== Sys2Proof/Laws/Content.lean ====
section
/-! SUPPORT. The reading of a card's canonical content gives the card back, for every card in its ranges (R143). -/

namespace Sys2Proof.Machine

set_option Elab.async false

/-- The reader reads the bytes as the value, whatever follows them. -/
def Reads {α : Type} (r : Reader α) (bs : List Byte) (x : α) : Prop := ∀ rest, r.run (bs ++ rest) = some (x, rest)

theorem Reads.pure {α : Type} (x : α) : Reads (Pure.pure x : Reader α) [] x := fun _ => rfl

theorem Reads.bind {α β : Type} {r : Reader α} {f : α → Reader β} {bs cs : List Byte} {x : α} {y : β} (h : Reads r bs x)
    (k : Reads (f x) cs y) : Reads (r >>= f) (bs ++ cs) y := by
  intro rest
  rw [StateT.run_bind, List.append_assoc, h]
  exact k rest

/-- The last reader of a row: nothing is read after it. -/
theorem Reads.last {α β : Type} {r : Reader α} {f : α → β} {bs : List Byte} {x : α} (h : Reads r bs x) :
    Reads (do let a ← r; return f a) bs (f x) := by
  have := Reads.bind (f := fun a => (Pure.pure (f a) : Reader β)) h (Reads.pure _)
  simpa using this

theorem Reads.map {α β : Type} {r : Reader α} (f : α → β) {bs : List Byte} {x : α} (h : Reads r bs x) : Reads (f <$> r) bs (f x) := by
  intro rest
  rw [StateT.run_map, h]
  rfl

theorem reads_word (w : Word32) : Reads readWord (bytes32 w) w := fun rest => by
  show some (_, rest) = _
  rw [word32_join]

theorem reads_nat {n : Nat} (h : n < 4294967296) : Reads readNat (le32 n) n := by
  have := Reads.map BitVec.toNat (reads_word (BitVec.ofNat 32 n))
  rwa [BitVec.toNat_ofNat, Nat.mod_eq_of_lt h] at this

theorem reads_int {i : Int} (h : -2147483648 ≤ i ∧ i < 2147483648) : Reads readInt (leInt i) i := by
  have := Reads.map BitVec.toInt (reads_word (BitVec.ofInt 32 i))
  rwa [BitVec.toInt_ofInt, Int.bmod_eq_of_le (by omega) (by omega)] at this

theorem reads_below {n : Nat} (i : Fin n) (h : n ≤ 4294967296) : Reads (readBelow n) (le32 i.val) i := by
  have := Reads.bind (f := fun x => if h : x < n then (Pure.pure ⟨x, h⟩ : Reader (Fin n)) else failure)
    (reads_nat (n := i.val) (by omega)) (y := i) (cs := []) (by simpa using Reads.pure i)
  simpa [readBelow] using this

theorem reads_yesNo (b : Bool) : Reads readYesNo [yesNo b] b := fun _ => by cases b <;> rfl

theorem reads_grade (g : Grade) : Reads readGrade [gradeCode g] g := fun _ => by cases g <;> rfl

theorem reads_kind (k : FeatureKind) : Reads readKind [kindCode k] k := fun _ => by cases k <;> rfl

theorem reads_list {α : Type} {r : Reader α} {g : α → List Byte} (xs : List α) (h : ∀ x ∈ xs, Reads r (g x) x) :
    Reads (readList r xs.length) (xs.flatMap g) xs := by
  induction xs with
  | nil => exact Reads.pure []
  | cons x xs ih => exact Reads.bind (h x (by simp)) (Reads.last (ih fun y hy => h y (by simp [hy])))

theorem reads_vector {α : Type} {n : Nat} {r : Reader α} {g : α → List Byte} (v : Vector α n) (h : ∀ x ∈ v.toList, Reads r (g x) x) :
    Reads (readVector r n) (v.toList.flatMap g) v := by
  have hl := reads_list v.toList h
  rw [Vector.length_toList] at hl
  have := Reads.bind (f := fun xs => if h : xs.length = n then (Pure.pure ⟨xs.toArray, h⟩ : Reader (Vector α n)) else failure) hl
    (y := v) (cs := []) (by rw [dif_pos (by simp)]; exact Reads.pure v)
  simpa [readVector] using this

/-- A reader of one byte before the others. -/
theorem Reads.cons {α β : Type} {r : Reader α} {f : α → Reader β} {b : Byte} {cs : List Byte} {x : α} {y : β} (h : Reads r [b] x)
    (k : Reads (f x) cs y) : Reads (r >>= f) (b :: cs) y := Reads.bind h k

theorem reads_head {h : HeadRecord} (ok : h.inRange = true) : Reads readHead (contentOfHead h) h := by
  simp only [HeadRecord.inRange, Bool.and_eq_true, decide_eq_true_eq] at ok
  simp only [contentOfHead, List.append_assoc, List.cons_append, List.nil_append]
  refine .cons (reads_yesNo _) <| .bind (reads_below _ (by decide)) <| .bind (reads_below _ (by decide)) <|
    .cons (reads_yesNo _) <| .cons (reads_yesNo _) <| .cons (reads_yesNo _) <| .bind (reads_nat ?_) <| .bind (reads_nat ?_) <|
    .bind (reads_int ?_) <| .bind (reads_int ?_) <| .bind (reads_nat ?_) <| .bind (reads_nat ?_) <| .last (reads_nat ?_) <;> omega

theorem reads_place {p : Place} (ok : p.window.inRange = true) : Reads readPlace (contentOfPlace p) p := by
  simp only [Window.inRange, decide_eq_true_eq] at ok
  simp only [contentOfPlace, List.append_assoc]
  refine .bind (reads_below _ (by decide)) <| .bind (reads_nat ?_) <| .last (reads_nat ?_) <;> omega

theorem reads_placeB {kind : FeatureKind} {o : Option Place} (none_ : o = none → kind ≠ .gap)
    (some_ : ∀ b, o = some b → kind = .gap ∧ b.window.inRange = true) :
    Reads (readPlaceB kind) (contentOfPlaceB o) o := by
  cases o with
  | none => rw [readPlaceB, if_neg (none_ rfl)]; exact Reads.pure none
  | some b => rw [readPlaceB, if_pos (some_ b rfl).1]; exact Reads.map some (reads_place (some_ b rfl).2)

theorem reads_limits {l : Limits} (ok : l.inRange = true) : Reads readLimits (contentOfLimits l) l := by
  simp only [Limits.inRange, Limits.tolerancesInRange, Bool.and_eq_true, decide_eq_true_eq] at ok
  simp only [contentOfLimits, List.append_assoc]
  refine .bind (reads_int ?_) <| .bind (reads_int ?_) <| .bind (reads_int ?_) <| .bind (reads_nat ?_) <| .bind (reads_nat ?_) <|
    .last (reads_grade _) <;> omega

theorem reads_feature {f : Option Feature} (ok : ∀ x, f = some x → x.inRange = true) : Reads readFeature (contentOfFeature f) f := by
  cases f with
  | none => exact Reads.cons (f := fun b => if b = true then some <$> readPresent else Pure.pure none) (reads_yesNo false) (Reads.pure none)
  | some x =>
      have ok := ok x rfl
      obtain ⟨id, kind, placeA, placeB, minPoints, trended, limits⟩ := x
      simp only [Feature.inRange, Bool.and_eq_true, decide_eq_true_eq] at ok
      obtain ⟨⟨⟨⟨hid, ha⟩, hm⟩, hl⟩, hb⟩ := ok
      have hB := reads_placeB (kind := kind) (o := placeB) (by rintro rfl; simpa using hb) (by rintro b rfl; simp at hb; simp [hb])
      simp only [contentOfFeature, List.append_assoc, List.cons_append, List.nil_append]
      refine Reads.cons (f := fun b => if b = true then some <$> readPresent else Pure.pure none) (reads_yesNo true) ?_
      refine Reads.map some (r := readPresent) ?_
      refine .bind (reads_nat ?_) <| .cons (reads_kind _) <| .bind (reads_place ha) <| .bind hB <| .bind (reads_nat ?_) <|
        .cons (reads_yesNo _) <| .last (reads_limits hl) <;> omega

theorem reads_thermal {t : ThermalSection} (ok : t.inRange = true) : Reads readThermal (contentOfThermal t) t := by
  simp only [ThermalSection.inRange, Bool.and_eq_true, decide_eq_true_eq] at ok
  simp only [contentOfThermal, List.append_assoc]
  refine .bind (reads_nat ?_) <| .bind (reads_nat ?_) <| .bind (reads_nat ?_) <| .bind (reads_nat ?_) <| .bind (reads_nat ?_) <|
    .bind (reads_nat ?_) <| .bind (reads_nat ?_) <| .bind (reads_nat ?_) <| .bind (reads_nat ?_) <| .last (reads_nat ?_) <;> omega

theorem reads_line {l : LineSection} (ok : l.inRange = true) : Reads readLine (contentOfLine l) l := by
  simp only [LineSection.inRange, LineSection.unclampedInRange, Bool.and_eq_true, decide_eq_true_eq] at ok
  simp only [contentOfLine, List.append_assoc, List.cons_append, List.nil_append]
  refine .bind (reads_nat ?_) <| .bind (reads_nat ?_) <| .bind (reads_nat ?_) <| .bind (reads_nat ?_) <| .bind (reads_nat ?_) <|
    .bind (reads_nat ?_) <| .bind (reads_nat ?_) <| .bind (reads_nat ?_) <| .cons (reads_grade _) <| .bind (reads_nat ?_) <|
    .bind (reads_nat ?_) <| .bind (reads_nat ?_) <| .bind (reads_nat ?_) <| .bind (reads_nat ?_) <| .cons (reads_grade _) <|
    .last (reads_nat ?_) <;> omega

theorem reads_card {c : Card} (ok : c.inRange = true) : Reads readWhole (canonical c) c := by
  simp only [Card.inRange, Bool.and_eq_true, decide_eq_true_eq] at ok
  obtain ⟨⟨⟨⟨⟨⟨⟨⟨⟨⟨hd, hr⟩, ha⟩, hs⟩, hh⟩, _⟩, hc⟩, hf⟩, _⟩, ht⟩, hl⟩ := ok
  simp only [canonical, List.append_assoc]
  refine .bind (reads_nat ?_) <| .bind (reads_nat ?_) <| .bind (reads_nat ?_) <| .bind (reads_nat ?_) <|
    .bind (reads_vector _ fun h m => reads_head (List.all_eq_true.mp hh h m)) <|
    .bind (reads_vector _ fun v m => reads_vector v fun i n => reads_int ?_) <|
    .bind (reads_vector _ fun f m => reads_feature fun x e => ?_) <| .bind (reads_thermal ht) <| .last (reads_line hl)
  all_goals try omega
  · have := List.all_eq_true.mp (List.all_eq_true.mp hc v m) i n
    simp only [curvePointInRange, decide_eq_true_eq] at this
    omega
  · have := List.all_eq_true.mp hf f m
    rw [e] at this
    exact this

/-- The canonical form of a card in its ranges is read back as that card (R143, R144). -/
theorem cardOfContent_canonical {c : Card} (ok : c.inRange = true) : cardOfContent (canonical c) = some c := by
  have h := reads_card ok []
  rw [List.append_nil] at h
  simp [cardOfContent, h, ok]

/-- Bytes that are read as a card are its canonical form, and the card keeps to its ranges. -/
theorem cardOfContent_sound {bs : List Byte} {c : Card} (h : cardOfContent bs = some c) : canonical c = bs ∧ c.inRange = true := by
  unfold cardOfContent at h
  split at h
  · split at h
    · rename_i d rest _ hd
      simp only [Bool.and_eq_true, beq_iff_eq] at hd
      exact Option.some.inj h ▸ ⟨hd.2, hd.1⟩
    · cases h
  · cases h

end Sys2Proof.Machine
end

