-- ==== Sys2Proof/Laws/State.lean ====
section
/-! SUPPORT. One lemma for each field of the state under each update of a block: what the update sets, and what it leaves. -/

namespace Sys2Proof.Machine

set_option Elab.async false

@[simp] theorem State.pending_withPowered (s : State) (x : Bool) : (s.withPowered x).pending = s.pending := rfl
@[simp] theorem State.powered_withPowered (s : State) (x : Bool) : (s.withPowered x).powered = x := rfl
@[simp] theorem State.now_withPowered (s : State) (x : Bool) : (s.withPowered x).now = s.now := rfl
@[simp] theorem State.runout_withPowered (s : State) (x : Bool) : (s.withPowered x).runout = s.runout := rfl
@[simp] theorem State.scan_withPowered (s : State) (x : Bool) : (s.withPowered x).scan = s.scan := rfl
@[simp] theorem State.thermal_withPowered (s : State) (x : Bool) : (s.withPowered x).thermal = s.thermal := rfl
@[simp] theorem State.engine_withPowered (s : State) (x : Bool) : (s.withPowered x).engine = s.engine := rfl
@[simp] theorem State.tracker_withPowered (s : State) (x : Bool) : (s.withPowered x).tracker = s.tracker := rfl
@[simp] theorem State.verdict_withPowered (s : State) (x : Bool) : (s.withPowered x).verdict = s.verdict := rfl
@[simp] theorem State.report_withPowered (s : State) (x : Bool) : (s.withPowered x).report = s.report := rfl
@[simp] theorem State.store_withPowered (s : State) (x : Bool) : (s.withPowered x).store = s.store := rfl
@[simp] theorem State.link_withPowered (s : State) (x : Bool) : (s.withPowered x).link = s.link := rfl

@[simp] theorem State.pending_withNow (s : State) (x : Nat) : (s.withNow x).pending = s.pending := rfl
@[simp] theorem State.powered_withNow (s : State) (x : Nat) : (s.withNow x).powered = s.powered := rfl
@[simp] theorem State.now_withNow (s : State) (x : Nat) : (s.withNow x).now = x := rfl
@[simp] theorem State.runout_withNow (s : State) (x : Nat) : (s.withNow x).runout = s.runout := rfl
@[simp] theorem State.scan_withNow (s : State) (x : Nat) : (s.withNow x).scan = s.scan := rfl
@[simp] theorem State.thermal_withNow (s : State) (x : Nat) : (s.withNow x).thermal = s.thermal := rfl
@[simp] theorem State.engine_withNow (s : State) (x : Nat) : (s.withNow x).engine = s.engine := rfl
@[simp] theorem State.tracker_withNow (s : State) (x : Nat) : (s.withNow x).tracker = s.tracker := rfl
@[simp] theorem State.verdict_withNow (s : State) (x : Nat) : (s.withNow x).verdict = s.verdict := rfl
@[simp] theorem State.report_withNow (s : State) (x : Nat) : (s.withNow x).report = s.report := rfl
@[simp] theorem State.store_withNow (s : State) (x : Nat) : (s.withNow x).store = s.store := rfl
@[simp] theorem State.link_withNow (s : State) (x : Nat) : (s.withNow x).link = s.link := rfl

@[simp] theorem State.pending_withRunout (s : State) (x : TravelUnit) : (s.withRunout x).pending = s.pending := rfl
@[simp] theorem State.powered_withRunout (s : State) (x : TravelUnit) : (s.withRunout x).powered = s.powered := rfl
@[simp] theorem State.now_withRunout (s : State) (x : TravelUnit) : (s.withRunout x).now = s.now := rfl
@[simp] theorem State.runout_withRunout (s : State) (x : TravelUnit) : (s.withRunout x).runout = x := rfl
@[simp] theorem State.scan_withRunout (s : State) (x : TravelUnit) : (s.withRunout x).scan = s.scan := rfl
@[simp] theorem State.thermal_withRunout (s : State) (x : TravelUnit) : (s.withRunout x).thermal = s.thermal := rfl
@[simp] theorem State.engine_withRunout (s : State) (x : TravelUnit) : (s.withRunout x).engine = s.engine := rfl
@[simp] theorem State.tracker_withRunout (s : State) (x : TravelUnit) : (s.withRunout x).tracker = s.tracker := rfl
@[simp] theorem State.verdict_withRunout (s : State) (x : TravelUnit) : (s.withRunout x).verdict = s.verdict := rfl
@[simp] theorem State.report_withRunout (s : State) (x : TravelUnit) : (s.withRunout x).report = s.report := rfl
@[simp] theorem State.store_withRunout (s : State) (x : TravelUnit) : (s.withRunout x).store = s.store := rfl
@[simp] theorem State.link_withRunout (s : State) (x : TravelUnit) : (s.withRunout x).link = s.link := rfl

@[simp] theorem State.pending_withScan (s : State) (x : ScanAssembler) : (s.withScan x).pending = s.pending := rfl
@[simp] theorem State.powered_withScan (s : State) (x : ScanAssembler) : (s.withScan x).powered = s.powered := rfl
@[simp] theorem State.now_withScan (s : State) (x : ScanAssembler) : (s.withScan x).now = s.now := rfl
@[simp] theorem State.runout_withScan (s : State) (x : ScanAssembler) : (s.withScan x).runout = s.runout := rfl
@[simp] theorem State.scan_withScan (s : State) (x : ScanAssembler) : (s.withScan x).scan = x := rfl
@[simp] theorem State.thermal_withScan (s : State) (x : ScanAssembler) : (s.withScan x).thermal = s.thermal := rfl
@[simp] theorem State.engine_withScan (s : State) (x : ScanAssembler) : (s.withScan x).engine = s.engine := rfl
@[simp] theorem State.tracker_withScan (s : State) (x : ScanAssembler) : (s.withScan x).tracker = s.tracker := rfl
@[simp] theorem State.verdict_withScan (s : State) (x : ScanAssembler) : (s.withScan x).verdict = s.verdict := rfl
@[simp] theorem State.report_withScan (s : State) (x : ScanAssembler) : (s.withScan x).report = s.report := rfl
@[simp] theorem State.store_withScan (s : State) (x : ScanAssembler) : (s.withScan x).store = s.store := rfl
@[simp] theorem State.link_withScan (s : State) (x : ScanAssembler) : (s.withScan x).link = s.link := rfl

@[simp] theorem State.pending_withThermal (s : State) (x : Vector ThermalRecord 4) : (s.withThermal x).pending = s.pending := rfl
@[simp] theorem State.powered_withThermal (s : State) (x : Vector ThermalRecord 4) : (s.withThermal x).powered = s.powered := rfl
@[simp] theorem State.now_withThermal (s : State) (x : Vector ThermalRecord 4) : (s.withThermal x).now = s.now := rfl
@[simp] theorem State.runout_withThermal (s : State) (x : Vector ThermalRecord 4) : (s.withThermal x).runout = s.runout := rfl
@[simp] theorem State.scan_withThermal (s : State) (x : Vector ThermalRecord 4) : (s.withThermal x).scan = s.scan := rfl
@[simp] theorem State.thermal_withThermal (s : State) (x : Vector ThermalRecord 4) : (s.withThermal x).thermal = x := rfl
@[simp] theorem State.engine_withThermal (s : State) (x : Vector ThermalRecord 4) : (s.withThermal x).engine = s.engine := rfl
@[simp] theorem State.tracker_withThermal (s : State) (x : Vector ThermalRecord 4) : (s.withThermal x).tracker = s.tracker := rfl
@[simp] theorem State.verdict_withThermal (s : State) (x : Vector ThermalRecord 4) : (s.withThermal x).verdict = s.verdict := rfl
@[simp] theorem State.report_withThermal (s : State) (x : Vector ThermalRecord 4) : (s.withThermal x).report = s.report := rfl
@[simp] theorem State.store_withThermal (s : State) (x : Vector ThermalRecord 4) : (s.withThermal x).store = s.store := rfl
@[simp] theorem State.link_withThermal (s : State) (x : Vector ThermalRecord 4) : (s.withThermal x).link = s.link := rfl

@[simp] theorem State.pending_withEngine (s : State) (x : SectionEngine) : (s.withEngine x).pending = s.pending := rfl
@[simp] theorem State.powered_withEngine (s : State) (x : SectionEngine) : (s.withEngine x).powered = s.powered := rfl
@[simp] theorem State.now_withEngine (s : State) (x : SectionEngine) : (s.withEngine x).now = s.now := rfl
@[simp] theorem State.runout_withEngine (s : State) (x : SectionEngine) : (s.withEngine x).runout = s.runout := rfl
@[simp] theorem State.scan_withEngine (s : State) (x : SectionEngine) : (s.withEngine x).scan = s.scan := rfl
@[simp] theorem State.thermal_withEngine (s : State) (x : SectionEngine) : (s.withEngine x).thermal = s.thermal := rfl
@[simp] theorem State.engine_withEngine (s : State) (x : SectionEngine) : (s.withEngine x).engine = x := rfl
@[simp] theorem State.tracker_withEngine (s : State) (x : SectionEngine) : (s.withEngine x).tracker = s.tracker := rfl
@[simp] theorem State.verdict_withEngine (s : State) (x : SectionEngine) : (s.withEngine x).verdict = s.verdict := rfl
@[simp] theorem State.report_withEngine (s : State) (x : SectionEngine) : (s.withEngine x).report = s.report := rfl
@[simp] theorem State.store_withEngine (s : State) (x : SectionEngine) : (s.withEngine x).store = s.store := rfl
@[simp] theorem State.link_withEngine (s : State) (x : SectionEngine) : (s.withEngine x).link = s.link := rfl

@[simp] theorem State.pending_withTracker (s : State) (x : Tracker) : (s.withTracker x).pending = s.pending := rfl
@[simp] theorem State.powered_withTracker (s : State) (x : Tracker) : (s.withTracker x).powered = s.powered := rfl
@[simp] theorem State.now_withTracker (s : State) (x : Tracker) : (s.withTracker x).now = s.now := rfl
@[simp] theorem State.runout_withTracker (s : State) (x : Tracker) : (s.withTracker x).runout = s.runout := rfl
@[simp] theorem State.scan_withTracker (s : State) (x : Tracker) : (s.withTracker x).scan = s.scan := rfl
@[simp] theorem State.thermal_withTracker (s : State) (x : Tracker) : (s.withTracker x).thermal = s.thermal := rfl
@[simp] theorem State.engine_withTracker (s : State) (x : Tracker) : (s.withTracker x).engine = s.engine := rfl
@[simp] theorem State.tracker_withTracker (s : State) (x : Tracker) : (s.withTracker x).tracker = x := rfl
@[simp] theorem State.verdict_withTracker (s : State) (x : Tracker) : (s.withTracker x).verdict = s.verdict := rfl
@[simp] theorem State.report_withTracker (s : State) (x : Tracker) : (s.withTracker x).report = s.report := rfl
@[simp] theorem State.store_withTracker (s : State) (x : Tracker) : (s.withTracker x).store = s.store := rfl
@[simp] theorem State.link_withTracker (s : State) (x : Tracker) : (s.withTracker x).link = s.link := rfl

@[simp] theorem State.pending_withVerdict (s : State) (x : VerdictUnit) : (s.withVerdict x).pending = s.pending := rfl
@[simp] theorem State.powered_withVerdict (s : State) (x : VerdictUnit) : (s.withVerdict x).powered = s.powered := rfl
@[simp] theorem State.now_withVerdict (s : State) (x : VerdictUnit) : (s.withVerdict x).now = s.now := rfl
@[simp] theorem State.runout_withVerdict (s : State) (x : VerdictUnit) : (s.withVerdict x).runout = s.runout := rfl
@[simp] theorem State.scan_withVerdict (s : State) (x : VerdictUnit) : (s.withVerdict x).scan = s.scan := rfl
@[simp] theorem State.thermal_withVerdict (s : State) (x : VerdictUnit) : (s.withVerdict x).thermal = s.thermal := rfl
@[simp] theorem State.engine_withVerdict (s : State) (x : VerdictUnit) : (s.withVerdict x).engine = s.engine := rfl
@[simp] theorem State.tracker_withVerdict (s : State) (x : VerdictUnit) : (s.withVerdict x).tracker = s.tracker := rfl
@[simp] theorem State.verdict_withVerdict (s : State) (x : VerdictUnit) : (s.withVerdict x).verdict = x := rfl
@[simp] theorem State.report_withVerdict (s : State) (x : VerdictUnit) : (s.withVerdict x).report = s.report := rfl
@[simp] theorem State.store_withVerdict (s : State) (x : VerdictUnit) : (s.withVerdict x).store = s.store := rfl
@[simp] theorem State.link_withVerdict (s : State) (x : VerdictUnit) : (s.withVerdict x).link = s.link := rfl

@[simp] theorem State.pending_withReport (s : State) (x : ReportUnit) : (s.withReport x).pending = s.pending := rfl
@[simp] theorem State.powered_withReport (s : State) (x : ReportUnit) : (s.withReport x).powered = s.powered := rfl
@[simp] theorem State.now_withReport (s : State) (x : ReportUnit) : (s.withReport x).now = s.now := rfl
@[simp] theorem State.runout_withReport (s : State) (x : ReportUnit) : (s.withReport x).runout = s.runout := rfl
@[simp] theorem State.scan_withReport (s : State) (x : ReportUnit) : (s.withReport x).scan = s.scan := rfl
@[simp] theorem State.thermal_withReport (s : State) (x : ReportUnit) : (s.withReport x).thermal = s.thermal := rfl
@[simp] theorem State.engine_withReport (s : State) (x : ReportUnit) : (s.withReport x).engine = s.engine := rfl
@[simp] theorem State.tracker_withReport (s : State) (x : ReportUnit) : (s.withReport x).tracker = s.tracker := rfl
@[simp] theorem State.verdict_withReport (s : State) (x : ReportUnit) : (s.withReport x).verdict = s.verdict := rfl
@[simp] theorem State.report_withReport (s : State) (x : ReportUnit) : (s.withReport x).report = x := rfl
@[simp] theorem State.store_withReport (s : State) (x : ReportUnit) : (s.withReport x).store = s.store := rfl
@[simp] theorem State.link_withReport (s : State) (x : ReportUnit) : (s.withReport x).link = s.link := rfl

@[simp] theorem State.pending_withStore (s : State) (x : CardStore) : (s.withStore x).pending = s.pending := rfl
@[simp] theorem State.powered_withStore (s : State) (x : CardStore) : (s.withStore x).powered = s.powered := rfl
@[simp] theorem State.now_withStore (s : State) (x : CardStore) : (s.withStore x).now = s.now := rfl
@[simp] theorem State.runout_withStore (s : State) (x : CardStore) : (s.withStore x).runout = s.runout := rfl
@[simp] theorem State.scan_withStore (s : State) (x : CardStore) : (s.withStore x).scan = s.scan := rfl
@[simp] theorem State.thermal_withStore (s : State) (x : CardStore) : (s.withStore x).thermal = s.thermal := rfl
@[simp] theorem State.engine_withStore (s : State) (x : CardStore) : (s.withStore x).engine = s.engine := rfl
@[simp] theorem State.tracker_withStore (s : State) (x : CardStore) : (s.withStore x).tracker = s.tracker := rfl
@[simp] theorem State.verdict_withStore (s : State) (x : CardStore) : (s.withStore x).verdict = s.verdict := rfl
@[simp] theorem State.report_withStore (s : State) (x : CardStore) : (s.withStore x).report = s.report := rfl
@[simp] theorem State.store_withStore (s : State) (x : CardStore) : (s.withStore x).store = x := rfl
@[simp] theorem State.link_withStore (s : State) (x : CardStore) : (s.withStore x).link = s.link := rfl

@[simp] theorem State.pending_withLink (s : State) (x : LinkPort) : (s.withLink x).pending = s.pending := rfl
@[simp] theorem State.powered_withLink (s : State) (x : LinkPort) : (s.withLink x).powered = s.powered := rfl
@[simp] theorem State.now_withLink (s : State) (x : LinkPort) : (s.withLink x).now = s.now := rfl
@[simp] theorem State.runout_withLink (s : State) (x : LinkPort) : (s.withLink x).runout = s.runout := rfl
@[simp] theorem State.scan_withLink (s : State) (x : LinkPort) : (s.withLink x).scan = s.scan := rfl
@[simp] theorem State.thermal_withLink (s : State) (x : LinkPort) : (s.withLink x).thermal = s.thermal := rfl
@[simp] theorem State.engine_withLink (s : State) (x : LinkPort) : (s.withLink x).engine = s.engine := rfl
@[simp] theorem State.tracker_withLink (s : State) (x : LinkPort) : (s.withLink x).tracker = s.tracker := rfl
@[simp] theorem State.verdict_withLink (s : State) (x : LinkPort) : (s.withLink x).verdict = s.verdict := rfl
@[simp] theorem State.report_withLink (s : State) (x : LinkPort) : (s.withLink x).report = s.report := rfl
@[simp] theorem State.store_withLink (s : State) (x : LinkPort) : (s.withLink x).store = s.store := rfl
@[simp] theorem State.link_withLink (s : State) (x : LinkPort) : (s.withLink x).link = x := rfl

end Sys2Proof.Machine
end

