-- ==== Sys2Proof/Laws/Frames.lean ====
section
/-! SUPPORT. What the shared operations leave: for each, one lemma for each block of the state that it does not touch. -/

namespace Sys2Proof.Machine

set_option Elab.async false

@[simp] theorem State.pending_handOver (i : Fin 4) (k : Slot) (s : State) : (s.handOver i k).pending = s.pending := rfl
@[simp] theorem State.powered_handOver (i : Fin 4) (k : Slot) (s : State) : (s.handOver i k).powered = s.powered := rfl
@[simp] theorem State.now_handOver (i : Fin 4) (k : Slot) (s : State) : (s.handOver i k).now = s.now := rfl
@[simp] theorem State.runout_handOver (i : Fin 4) (k : Slot) (s : State) : (s.handOver i k).runout = s.runout := rfl
@[simp] theorem State.thermal_handOver (i : Fin 4) (k : Slot) (s : State) : (s.handOver i k).thermal = s.thermal := rfl
@[simp] theorem State.tracker_handOver (i : Fin 4) (k : Slot) (s : State) : (s.handOver i k).tracker = s.tracker := rfl
@[simp] theorem State.verdict_handOver (i : Fin 4) (k : Slot) (s : State) : (s.handOver i k).verdict = s.verdict := rfl
@[simp] theorem State.report_handOver (i : Fin 4) (k : Slot) (s : State) : (s.handOver i k).report = s.report := rfl
@[simp] theorem State.store_handOver (i : Fin 4) (k : Slot) (s : State) : (s.handOver i k).store = s.store := rfl
@[simp] theorem State.link_handOver (i : Fin 4) (k : Slot) (s : State) : (s.handOver i k).link = s.link := rfl

@[simp] theorem State.pending_tryHandOver (s : State) : (s.tryHandOver).pending = s.pending := by unfold State.tryHandOver; (repeat' split) <;> rfl
@[simp] theorem State.powered_tryHandOver (s : State) : (s.tryHandOver).powered = s.powered := by unfold State.tryHandOver; (repeat' split) <;> rfl
@[simp] theorem State.now_tryHandOver (s : State) : (s.tryHandOver).now = s.now := by unfold State.tryHandOver; (repeat' split) <;> rfl
@[simp] theorem State.runout_tryHandOver (s : State) : (s.tryHandOver).runout = s.runout := by unfold State.tryHandOver; (repeat' split) <;> rfl
@[simp] theorem State.thermal_tryHandOver (s : State) : (s.tryHandOver).thermal = s.thermal := by unfold State.tryHandOver; (repeat' split) <;> rfl
@[simp] theorem State.tracker_tryHandOver (s : State) : (s.tryHandOver).tracker = s.tracker := by unfold State.tryHandOver; (repeat' split) <;> rfl
@[simp] theorem State.verdict_tryHandOver (s : State) : (s.tryHandOver).verdict = s.verdict := by unfold State.tryHandOver; (repeat' split) <;> rfl
@[simp] theorem State.report_tryHandOver (s : State) : (s.tryHandOver).report = s.report := by unfold State.tryHandOver; (repeat' split) <;> rfl
@[simp] theorem State.store_tryHandOver (s : State) : (s.tryHandOver).store = s.store := by unfold State.tryHandOver; (repeat' split) <;> rfl
@[simp] theorem State.link_tryHandOver (s : State) : (s.tryHandOver).link = s.link := by unfold State.tryHandOver; (repeat' split) <;> rfl

@[simp] theorem State.pending_closeSlot (i : Fin 4) (k : Slot) (s : State) : (s.closeSlot i k).pending = s.pending := by simp [State.closeSlot]
@[simp] theorem State.powered_closeSlot (i : Fin 4) (k : Slot) (s : State) : (s.closeSlot i k).powered = s.powered := by simp [State.closeSlot]
@[simp] theorem State.now_closeSlot (i : Fin 4) (k : Slot) (s : State) : (s.closeSlot i k).now = s.now := by simp [State.closeSlot]
@[simp] theorem State.runout_closeSlot (i : Fin 4) (k : Slot) (s : State) : (s.closeSlot i k).runout = s.runout := by simp [State.closeSlot]
@[simp] theorem State.thermal_closeSlot (i : Fin 4) (k : Slot) (s : State) : (s.closeSlot i k).thermal = s.thermal := by simp [State.closeSlot]
@[simp] theorem State.tracker_closeSlot (i : Fin 4) (k : Slot) (s : State) : (s.closeSlot i k).tracker = s.tracker := by simp [State.closeSlot]
@[simp] theorem State.verdict_closeSlot (i : Fin 4) (k : Slot) (s : State) : (s.closeSlot i k).verdict = s.verdict := by simp [State.closeSlot]
@[simp] theorem State.report_closeSlot (i : Fin 4) (k : Slot) (s : State) : (s.closeSlot i k).report = s.report := by simp [State.closeSlot]
@[simp] theorem State.store_closeSlot (i : Fin 4) (k : Slot) (s : State) : (s.closeSlot i k).store = s.store := by simp [State.closeSlot]
@[simp] theorem State.link_closeSlot (i : Fin 4) (k : Slot) (s : State) : (s.closeSlot i k).link = s.link := by simp [State.closeSlot]

@[simp] theorem State.pending_missHeads (k : Slot) (s : State) : (s.missHeads k).pending = s.pending := rfl
@[simp] theorem State.powered_missHeads (k : Slot) (s : State) : (s.missHeads k).powered = s.powered := rfl
@[simp] theorem State.now_missHeads (k : Slot) (s : State) : (s.missHeads k).now = s.now := rfl
@[simp] theorem State.runout_missHeads (k : Slot) (s : State) : (s.missHeads k).runout = s.runout := rfl
@[simp] theorem State.thermal_missHeads (k : Slot) (s : State) : (s.missHeads k).thermal = s.thermal := rfl
@[simp] theorem State.engine_missHeads (k : Slot) (s : State) : (s.missHeads k).engine = s.engine := rfl
@[simp] theorem State.tracker_missHeads (k : Slot) (s : State) : (s.missHeads k).tracker = s.tracker := rfl
@[simp] theorem State.verdict_missHeads (k : Slot) (s : State) : (s.missHeads k).verdict = s.verdict := rfl
@[simp] theorem State.store_missHeads (k : Slot) (s : State) : (s.missHeads k).store = s.store := rfl
@[simp] theorem State.link_missHeads (k : Slot) (s : State) : (s.missHeads k).link = s.link := rfl

@[simp] theorem State.pending_closeMissing (i : Fin 4) (k : Slot) (s : State) : (s.closeMissing i k).pending = s.pending := by simp [State.closeMissing]
@[simp] theorem State.powered_closeMissing (i : Fin 4) (k : Slot) (s : State) : (s.closeMissing i k).powered = s.powered := by simp [State.closeMissing]
@[simp] theorem State.now_closeMissing (i : Fin 4) (k : Slot) (s : State) : (s.closeMissing i k).now = s.now := by simp [State.closeMissing]
@[simp] theorem State.runout_closeMissing (i : Fin 4) (k : Slot) (s : State) : (s.closeMissing i k).runout = s.runout := by simp [State.closeMissing]
@[simp] theorem State.thermal_closeMissing (i : Fin 4) (k : Slot) (s : State) : (s.closeMissing i k).thermal = s.thermal := by simp [State.closeMissing]
@[simp] theorem State.tracker_closeMissing (i : Fin 4) (k : Slot) (s : State) : (s.closeMissing i k).tracker = s.tracker := by simp [State.closeMissing]
@[simp] theorem State.verdict_closeMissing (i : Fin 4) (k : Slot) (s : State) : (s.closeMissing i k).verdict = s.verdict := by simp [State.closeMissing]
@[simp] theorem State.store_closeMissing (i : Fin 4) (k : Slot) (s : State) : (s.closeMissing i k).store = s.store := by simp [State.closeMissing]
@[simp] theorem State.link_closeMissing (i : Fin 4) (k : Slot) (s : State) : (s.closeMissing i k).link = s.link := by simp [State.closeMissing]

@[simp] theorem State.pending_forceClose (s : State) : (s.forceClose).pending = s.pending := by unfold State.forceClose; (repeat' split) <;> simp
@[simp] theorem State.powered_forceClose (s : State) : (s.forceClose).powered = s.powered := by unfold State.forceClose; (repeat' split) <;> simp
@[simp] theorem State.now_forceClose (s : State) : (s.forceClose).now = s.now := by unfold State.forceClose; (repeat' split) <;> simp
@[simp] theorem State.runout_forceClose (s : State) : (s.forceClose).runout = s.runout := by unfold State.forceClose; (repeat' split) <;> simp
@[simp] theorem State.thermal_forceClose (s : State) : (s.forceClose).thermal = s.thermal := by unfold State.forceClose; (repeat' split) <;> simp
@[simp] theorem State.tracker_forceClose (s : State) : (s.forceClose).tracker = s.tracker := by unfold State.forceClose; (repeat' split) <;> simp
@[simp] theorem State.verdict_forceClose (s : State) : (s.forceClose).verdict = s.verdict := by unfold State.forceClose; (repeat' split) <;> simp
@[simp] theorem State.store_forceClose (s : State) : (s.forceClose).store = s.store := by unfold State.forceClose; (repeat' split) <;> simp
@[simp] theorem State.link_forceClose (s : State) : (s.forceClose).link = s.link := by unfold State.forceClose; (repeat' split) <;> simp

@[simp] theorem State.pending_takeSlot (i : Fin 4) (m : Bool) (p : Nat) (s : State) : (s.takeSlot i m p).pending = s.pending := by unfold State.takeSlot; dsimp only; split <;> simp
@[simp] theorem State.powered_takeSlot (i : Fin 4) (m : Bool) (p : Nat) (s : State) : (s.takeSlot i m p).powered = s.powered := by unfold State.takeSlot; dsimp only; split <;> simp
@[simp] theorem State.now_takeSlot (i : Fin 4) (m : Bool) (p : Nat) (s : State) : (s.takeSlot i m p).now = s.now := by unfold State.takeSlot; dsimp only; split <;> simp
@[simp] theorem State.runout_takeSlot (i : Fin 4) (m : Bool) (p : Nat) (s : State) : (s.takeSlot i m p).runout = s.runout := by unfold State.takeSlot; dsimp only; split <;> simp
@[simp] theorem State.thermal_takeSlot (i : Fin 4) (m : Bool) (p : Nat) (s : State) : (s.takeSlot i m p).thermal = s.thermal := by unfold State.takeSlot; dsimp only; split <;> simp
@[simp] theorem State.tracker_takeSlot (i : Fin 4) (m : Bool) (p : Nat) (s : State) : (s.takeSlot i m p).tracker = s.tracker := by unfold State.takeSlot; dsimp only; split <;> simp
@[simp] theorem State.verdict_takeSlot (i : Fin 4) (m : Bool) (p : Nat) (s : State) : (s.takeSlot i m p).verdict = s.verdict := by unfold State.takeSlot; dsimp only; split <;> simp
@[simp] theorem State.report_takeSlot (i : Fin 4) (m : Bool) (p : Nat) (s : State) : (s.takeSlot i m p).report = s.report := by unfold State.takeSlot; dsimp only; split <;> simp
@[simp] theorem State.store_takeSlot (i : Fin 4) (m : Bool) (p : Nat) (s : State) : (s.takeSlot i m p).store = s.store := by unfold State.takeSlot; dsimp only; split <;> simp
@[simp] theorem State.link_takeSlot (i : Fin 4) (m : Bool) (p : Nat) (s : State) : (s.takeSlot i m p).link = s.link := by unfold State.takeSlot; dsimp only; split <;> simp

@[simp] theorem State.pending_skipTrigger (p : Nat) (s : State) : (s.skipTrigger p).pending = s.pending := by simp [State.skipTrigger]
@[simp] theorem State.powered_skipTrigger (p : Nat) (s : State) : (s.skipTrigger p).powered = s.powered := by simp [State.skipTrigger]
@[simp] theorem State.now_skipTrigger (p : Nat) (s : State) : (s.skipTrigger p).now = s.now := by simp [State.skipTrigger]
@[simp] theorem State.runout_skipTrigger (p : Nat) (s : State) : (s.skipTrigger p).runout = s.runout := by simp [State.skipTrigger]
@[simp] theorem State.thermal_skipTrigger (p : Nat) (s : State) : (s.skipTrigger p).thermal = s.thermal := by simp [State.skipTrigger]
@[simp] theorem State.tracker_skipTrigger (p : Nat) (s : State) : (s.skipTrigger p).tracker = s.tracker := by simp [State.skipTrigger]
@[simp] theorem State.verdict_skipTrigger (p : Nat) (s : State) : (s.skipTrigger p).verdict = s.verdict := by simp [State.skipTrigger]
@[simp] theorem State.store_skipTrigger (p : Nat) (s : State) : (s.skipTrigger p).store = s.store := by simp [State.skipTrigger]
@[simp] theorem State.link_skipTrigger (p : Nat) (s : State) : (s.skipTrigger p).link = s.link := by simp [State.skipTrigger]

@[simp] theorem State.pending_distanceTrigger (p : Nat) (s : State) : (s.distanceTrigger p).pending = s.pending := by unfold State.distanceTrigger; split <;> simp
@[simp] theorem State.powered_distanceTrigger (p : Nat) (s : State) : (s.distanceTrigger p).powered = s.powered := by unfold State.distanceTrigger; split <;> simp
@[simp] theorem State.now_distanceTrigger (p : Nat) (s : State) : (s.distanceTrigger p).now = s.now := by unfold State.distanceTrigger; split <;> simp
@[simp] theorem State.runout_distanceTrigger (p : Nat) (s : State) : (s.distanceTrigger p).runout = s.runout := by unfold State.distanceTrigger; split <;> simp
@[simp] theorem State.thermal_distanceTrigger (p : Nat) (s : State) : (s.distanceTrigger p).thermal = s.thermal := by unfold State.distanceTrigger; split <;> simp
@[simp] theorem State.tracker_distanceTrigger (p : Nat) (s : State) : (s.distanceTrigger p).tracker = s.tracker := by unfold State.distanceTrigger; split <;> simp
@[simp] theorem State.verdict_distanceTrigger (p : Nat) (s : State) : (s.distanceTrigger p).verdict = s.verdict := by unfold State.distanceTrigger; split <;> simp
@[simp] theorem State.store_distanceTrigger (p : Nat) (s : State) : (s.distanceTrigger p).store = s.store := by unfold State.distanceTrigger; split <;> simp
@[simp] theorem State.link_distanceTrigger (p : Nat) (s : State) : (s.distanceTrigger p).link = s.link := by unfold State.distanceTrigger; split <;> simp

@[simp] theorem State.pending_crossPitch (s : State) : (s.crossPitch).pending = s.pending := by simp [State.crossPitch]
@[simp] theorem State.powered_crossPitch (s : State) : (s.crossPitch).powered = s.powered := by simp [State.crossPitch]
@[simp] theorem State.now_crossPitch (s : State) : (s.crossPitch).now = s.now := by simp [State.crossPitch]
@[simp] theorem State.thermal_crossPitch (s : State) : (s.crossPitch).thermal = s.thermal := by simp [State.crossPitch]
@[simp] theorem State.tracker_crossPitch (s : State) : (s.crossPitch).tracker = s.tracker := by simp [State.crossPitch]
@[simp] theorem State.verdict_crossPitch (s : State) : (s.crossPitch).verdict = s.verdict := by simp [State.crossPitch]
@[simp] theorem State.store_crossPitch (s : State) : (s.crossPitch).store = s.store := by simp [State.crossPitch]
@[simp] theorem State.link_crossPitch (s : State) : (s.crossPitch).link = s.link := by simp [State.crossPitch]

@[simp] theorem State.pending_crossings (n : Nat) (s : State) : (State.crossings n s).pending = s.pending := by
  induction n generalizing s with
  | zero => rfl
  | succ n ih => unfold State.crossings; split <;> simp [ih]
@[simp] theorem State.powered_crossings (n : Nat) (s : State) : (State.crossings n s).powered = s.powered := by
  induction n generalizing s with
  | zero => rfl
  | succ n ih => unfold State.crossings; split <;> simp [ih]
@[simp] theorem State.now_crossings (n : Nat) (s : State) : (State.crossings n s).now = s.now := by
  induction n generalizing s with
  | zero => rfl
  | succ n ih => unfold State.crossings; split <;> simp [ih]
@[simp] theorem State.thermal_crossings (n : Nat) (s : State) : (State.crossings n s).thermal = s.thermal := by
  induction n generalizing s with
  | zero => rfl
  | succ n ih => unfold State.crossings; split <;> simp [ih]
@[simp] theorem State.tracker_crossings (n : Nat) (s : State) : (State.crossings n s).tracker = s.tracker := by
  induction n generalizing s with
  | zero => rfl
  | succ n ih => unfold State.crossings; split <;> simp [ih]
@[simp] theorem State.verdict_crossings (n : Nat) (s : State) : (State.crossings n s).verdict = s.verdict := by
  induction n generalizing s with
  | zero => rfl
  | succ n ih => unfold State.crossings; split <;> simp [ih]
@[simp] theorem State.store_crossings (n : Nat) (s : State) : (State.crossings n s).store = s.store := by
  induction n generalizing s with
  | zero => rfl
  | succ n ih => unfold State.crossings; split <;> simp [ih]
@[simp] theorem State.link_crossings (n : Nat) (s : State) : (State.crossings n s).link = s.link := by
  induction n generalizing s with
  | zero => rfl
  | succ n ih => unfold State.crossings; split <;> simp [ih]

@[simp] theorem State.pending_growTravel (d : Nat) (s : State) : (s.growTravel d).pending = s.pending := by unfold State.growTravel; dsimp only; split <;> simp
@[simp] theorem State.powered_growTravel (d : Nat) (s : State) : (s.growTravel d).powered = s.powered := by unfold State.growTravel; dsimp only; split <;> simp
@[simp] theorem State.now_growTravel (d : Nat) (s : State) : (s.growTravel d).now = s.now := by unfold State.growTravel; dsimp only; split <;> simp
@[simp] theorem State.thermal_growTravel (d : Nat) (s : State) : (s.growTravel d).thermal = s.thermal := by unfold State.growTravel; dsimp only; split <;> simp
@[simp] theorem State.tracker_growTravel (d : Nat) (s : State) : (s.growTravel d).tracker = s.tracker := by unfold State.growTravel; dsimp only; split <;> simp
@[simp] theorem State.verdict_growTravel (d : Nat) (s : State) : (s.growTravel d).verdict = s.verdict := by unfold State.growTravel; dsimp only; split <;> simp
@[simp] theorem State.store_growTravel (d : Nat) (s : State) : (s.growTravel d).store = s.store := by unfold State.growTravel; dsimp only; split <;> simp
@[simp] theorem State.link_growTravel (d : Nat) (s : State) : (s.growTravel d).link = s.link := by unfold State.growTravel; dsimp only; split <;> simp

@[simp] theorem State.pending_withStrand (i : Fin 4) (st : Strand) (s : State) : (s.withStrand i st).pending = s.pending := rfl
@[simp] theorem State.powered_withStrand (i : Fin 4) (st : Strand) (s : State) : (s.withStrand i st).powered = s.powered := rfl
@[simp] theorem State.now_withStrand (i : Fin 4) (st : Strand) (s : State) : (s.withStrand i st).now = s.now := rfl
@[simp] theorem State.runout_withStrand (i : Fin 4) (st : Strand) (s : State) : (s.withStrand i st).runout = s.runout := rfl
@[simp] theorem State.scan_withStrand (i : Fin 4) (st : Strand) (s : State) : (s.withStrand i st).scan = s.scan := rfl
@[simp] theorem State.thermal_withStrand (i : Fin 4) (st : Strand) (s : State) : (s.withStrand i st).thermal = s.thermal := rfl
@[simp] theorem State.engine_withStrand (i : Fin 4) (st : Strand) (s : State) : (s.withStrand i st).engine = s.engine := rfl
@[simp] theorem State.verdict_withStrand (i : Fin 4) (st : Strand) (s : State) : (s.withStrand i st).verdict = s.verdict := rfl
@[simp] theorem State.report_withStrand (i : Fin 4) (st : Strand) (s : State) : (s.withStrand i st).report = s.report := rfl
@[simp] theorem State.store_withStrand (i : Fin 4) (st : Strand) (s : State) : (s.withStrand i st).store = s.store := rfl
@[simp] theorem State.link_withStrand (i : Fin 4) (st : Strand) (s : State) : (s.withStrand i st).link = s.link := rfl

@[simp] theorem State.pending_withTracked (i : Fin 4) (t : Tracked) (s : State) : (s.withTracked i t).pending = s.pending := rfl
@[simp] theorem State.powered_withTracked (i : Fin 4) (t : Tracked) (s : State) : (s.withTracked i t).powered = s.powered := rfl
@[simp] theorem State.now_withTracked (i : Fin 4) (t : Tracked) (s : State) : (s.withTracked i t).now = s.now := rfl
@[simp] theorem State.runout_withTracked (i : Fin 4) (t : Tracked) (s : State) : (s.withTracked i t).runout = s.runout := rfl
@[simp] theorem State.scan_withTracked (i : Fin 4) (t : Tracked) (s : State) : (s.withTracked i t).scan = s.scan := rfl
@[simp] theorem State.thermal_withTracked (i : Fin 4) (t : Tracked) (s : State) : (s.withTracked i t).thermal = s.thermal := rfl
@[simp] theorem State.engine_withTracked (i : Fin 4) (t : Tracked) (s : State) : (s.withTracked i t).engine = s.engine := rfl
@[simp] theorem State.verdict_withTracked (i : Fin 4) (t : Tracked) (s : State) : (s.withTracked i t).verdict = s.verdict := rfl
@[simp] theorem State.store_withTracked (i : Fin 4) (t : Tracked) (s : State) : (s.withTracked i t).store = s.store := rfl
@[simp] theorem State.link_withTracked (i : Fin 4) (t : Tracked) (s : State) : (s.withTracked i t).link = s.link := rfl

@[simp] theorem State.pending_formLength (o : Origin) (i : Fin 4) (u : Int) (s : State) : (s.formLength o i u).pending = s.pending := rfl
@[simp] theorem State.powered_formLength (o : Origin) (i : Fin 4) (u : Int) (s : State) : (s.formLength o i u).powered = s.powered := rfl
@[simp] theorem State.now_formLength (o : Origin) (i : Fin 4) (u : Int) (s : State) : (s.formLength o i u).now = s.now := rfl
@[simp] theorem State.runout_formLength (o : Origin) (i : Fin 4) (u : Int) (s : State) : (s.formLength o i u).runout = s.runout := rfl
@[simp] theorem State.scan_formLength (o : Origin) (i : Fin 4) (u : Int) (s : State) : (s.formLength o i u).scan = s.scan := rfl
@[simp] theorem State.thermal_formLength (o : Origin) (i : Fin 4) (u : Int) (s : State) : (s.formLength o i u).thermal = s.thermal := rfl
@[simp] theorem State.engine_formLength (o : Origin) (i : Fin 4) (u : Int) (s : State) : (s.formLength o i u).engine = s.engine := rfl
@[simp] theorem State.store_formLength (o : Origin) (i : Fin 4) (u : Int) (s : State) : (s.formLength o i u).store = s.store := rfl
@[simp] theorem State.link_formLength (o : Origin) (i : Fin 4) (u : Int) (s : State) : (s.formLength o i u).link = s.link := rfl

@[simp] theorem State.pending_finalLength (o : Origin) (i : Fin 4) (h : Int) (s : State) : (s.finalLength o i h).pending = s.pending := by unfold State.finalLength; dsimp only; split <;> simp
@[simp] theorem State.powered_finalLength (o : Origin) (i : Fin 4) (h : Int) (s : State) : (s.finalLength o i h).powered = s.powered := by unfold State.finalLength; dsimp only; split <;> simp
@[simp] theorem State.now_finalLength (o : Origin) (i : Fin 4) (h : Int) (s : State) : (s.finalLength o i h).now = s.now := by unfold State.finalLength; dsimp only; split <;> simp
@[simp] theorem State.runout_finalLength (o : Origin) (i : Fin 4) (h : Int) (s : State) : (s.finalLength o i h).runout = s.runout := by unfold State.finalLength; dsimp only; split <;> simp
@[simp] theorem State.scan_finalLength (o : Origin) (i : Fin 4) (h : Int) (s : State) : (s.finalLength o i h).scan = s.scan := by unfold State.finalLength; dsimp only; split <;> simp
@[simp] theorem State.thermal_finalLength (o : Origin) (i : Fin 4) (h : Int) (s : State) : (s.finalLength o i h).thermal = s.thermal := by unfold State.finalLength; dsimp only; split <;> simp
@[simp] theorem State.engine_finalLength (o : Origin) (i : Fin 4) (h : Int) (s : State) : (s.finalLength o i h).engine = s.engine := by unfold State.finalLength; dsimp only; split <;> simp
@[simp] theorem State.store_finalLength (o : Origin) (i : Fin 4) (h : Int) (s : State) : (s.finalLength o i h).store = s.store := by unfold State.finalLength; dsimp only; split <;> simp
@[simp] theorem State.link_finalLength (o : Origin) (i : Fin 4) (h : Int) (s : State) : (s.finalLength o i h).link = s.link := by unfold State.finalLength; dsimp only; split <;> simp

@[simp] theorem State.pending_returnToIdle (s : State) : (s.returnToIdle).pending = s.pending := rfl
@[simp] theorem State.powered_returnToIdle (s : State) : (s.returnToIdle).powered = s.powered := rfl
@[simp] theorem State.now_returnToIdle (s : State) : (s.returnToIdle).now = s.now := rfl
@[simp] theorem State.runout_returnToIdle (s : State) : (s.returnToIdle).runout = s.runout := rfl
@[simp] theorem State.scan_returnToIdle (s : State) : (s.returnToIdle).scan = s.scan := rfl
@[simp] theorem State.thermal_returnToIdle (s : State) : (s.returnToIdle).thermal = s.thermal := rfl
@[simp] theorem State.engine_returnToIdle (s : State) : (s.returnToIdle).engine = s.engine := rfl
@[simp] theorem State.verdict_returnToIdle (s : State) : (s.returnToIdle).verdict = s.verdict := rfl
@[simp] theorem State.report_returnToIdle (s : State) : (s.returnToIdle).report = s.report := rfl
@[simp] theorem State.link_returnToIdle (s : State) : (s.returnToIdle).link = s.link := rfl

@[simp] theorem State.pending_endStrand (i : Fin 4) (s : State) : (s.endStrand i).pending = s.pending := by unfold State.endStrand; dsimp only; split <;> simp
@[simp] theorem State.powered_endStrand (i : Fin 4) (s : State) : (s.endStrand i).powered = s.powered := by unfold State.endStrand; dsimp only; split <;> simp
@[simp] theorem State.now_endStrand (i : Fin 4) (s : State) : (s.endStrand i).now = s.now := by unfold State.endStrand; dsimp only; split <;> simp
@[simp] theorem State.runout_endStrand (i : Fin 4) (s : State) : (s.endStrand i).runout = s.runout := by unfold State.endStrand; dsimp only; split <;> simp
@[simp] theorem State.scan_endStrand (i : Fin 4) (s : State) : (s.endStrand i).scan = s.scan := by unfold State.endStrand; dsimp only; split <;> simp
@[simp] theorem State.thermal_endStrand (i : Fin 4) (s : State) : (s.endStrand i).thermal = s.thermal := by unfold State.endStrand; dsimp only; split <;> simp
@[simp] theorem State.engine_endStrand (i : Fin 4) (s : State) : (s.endStrand i).engine = s.engine := by unfold State.endStrand; dsimp only; split <;> simp
@[simp] theorem State.verdict_endStrand (i : Fin 4) (s : State) : (s.endStrand i).verdict = s.verdict := by unfold State.endStrand; dsimp only; split <;> simp
@[simp] theorem State.report_endStrand (i : Fin 4) (s : State) : (s.endStrand i).report = s.report := by unfold State.endStrand; dsimp only; split <;> simp
@[simp] theorem State.link_endStrand (i : Fin 4) (s : State) : (s.endStrand i).link = s.link := by unfold State.endStrand; dsimp only; split <;> simp

@[simp] theorem State.pending_cutStrand (c : Int) (i : Fin 4) (s : State) : (s.cutStrand c i).pending = s.pending := by unfold State.cutStrand; dsimp only; (repeat' split) <;> simp
@[simp] theorem State.powered_cutStrand (c : Int) (i : Fin 4) (s : State) : (s.cutStrand c i).powered = s.powered := by unfold State.cutStrand; dsimp only; (repeat' split) <;> simp
@[simp] theorem State.now_cutStrand (c : Int) (i : Fin 4) (s : State) : (s.cutStrand c i).now = s.now := by unfold State.cutStrand; dsimp only; (repeat' split) <;> simp
@[simp] theorem State.runout_cutStrand (c : Int) (i : Fin 4) (s : State) : (s.cutStrand c i).runout = s.runout := by unfold State.cutStrand; dsimp only; (repeat' split) <;> simp
@[simp] theorem State.scan_cutStrand (c : Int) (i : Fin 4) (s : State) : (s.cutStrand c i).scan = s.scan := by unfold State.cutStrand; dsimp only; (repeat' split) <;> simp
@[simp] theorem State.thermal_cutStrand (c : Int) (i : Fin 4) (s : State) : (s.cutStrand c i).thermal = s.thermal := by unfold State.cutStrand; dsimp only; (repeat' split) <;> simp
@[simp] theorem State.engine_cutStrand (c : Int) (i : Fin 4) (s : State) : (s.cutStrand c i).engine = s.engine := by unfold State.cutStrand; dsimp only; (repeat' split) <;> simp
@[simp] theorem State.link_cutStrand (c : Int) (i : Fin 4) (s : State) : (s.cutStrand c i).link = s.link := by unfold State.cutStrand; dsimp only; (repeat' split) <;> simp

@[simp] theorem State.pending_edit (c : Card) (s : State) : (s.edit c).pending = s.pending := rfl
@[simp] theorem State.powered_edit (c : Card) (s : State) : (s.edit c).powered = s.powered := rfl
@[simp] theorem State.now_edit (c : Card) (s : State) : (s.edit c).now = s.now := rfl
@[simp] theorem State.runout_edit (c : Card) (s : State) : (s.edit c).runout = s.runout := rfl
@[simp] theorem State.scan_edit (c : Card) (s : State) : (s.edit c).scan = s.scan := rfl
@[simp] theorem State.thermal_edit (c : Card) (s : State) : (s.edit c).thermal = s.thermal := rfl
@[simp] theorem State.engine_edit (c : Card) (s : State) : (s.edit c).engine = s.engine := rfl
@[simp] theorem State.tracker_edit (c : Card) (s : State) : (s.edit c).tracker = s.tracker := rfl
@[simp] theorem State.verdict_edit (c : Card) (s : State) : (s.edit c).verdict = s.verdict := rfl
@[simp] theorem State.report_edit (c : Card) (s : State) : (s.edit c).report = s.report := rfl
@[simp] theorem State.link_edit (c : Card) (s : State) : (s.edit c).link = s.link := rfl

@[simp] theorem State.pending_takeThermal (t : ThermalSection) (s : State) : (s.takeThermal t).pending = s.pending := rfl
@[simp] theorem State.powered_takeThermal (t : ThermalSection) (s : State) : (s.takeThermal t).powered = s.powered := rfl
@[simp] theorem State.now_takeThermal (t : ThermalSection) (s : State) : (s.takeThermal t).now = s.now := rfl
@[simp] theorem State.runout_takeThermal (t : ThermalSection) (s : State) : (s.takeThermal t).runout = s.runout := rfl
@[simp] theorem State.scan_takeThermal (t : ThermalSection) (s : State) : (s.takeThermal t).scan = s.scan := rfl
@[simp] theorem State.engine_takeThermal (t : ThermalSection) (s : State) : (s.takeThermal t).engine = s.engine := rfl
@[simp] theorem State.tracker_takeThermal (t : ThermalSection) (s : State) : (s.takeThermal t).tracker = s.tracker := rfl
@[simp] theorem State.verdict_takeThermal (t : ThermalSection) (s : State) : (s.takeThermal t).verdict = s.verdict := rfl
@[simp] theorem State.report_takeThermal (t : ThermalSection) (s : State) : (s.takeThermal t).report = s.report := rfl
@[simp] theorem State.store_takeThermal (t : ThermalSection) (s : State) : (s.takeThermal t).store = s.store := rfl
@[simp] theorem State.link_takeThermal (t : ThermalSection) (s : State) : (s.takeThermal t).link = s.link := rfl

@[simp] theorem State.pending_reach (d : Nat) (s : State) : (s.reach d).pending = s.pending := rfl
@[simp] theorem State.powered_reach (d : Nat) (s : State) : (s.reach d).powered = s.powered := rfl
@[simp] theorem State.runout_reach (d : Nat) (s : State) : (s.reach d).runout = s.runout := rfl
@[simp] theorem State.scan_reach (d : Nat) (s : State) : (s.reach d).scan = s.scan := rfl
@[simp] theorem State.thermal_reach (d : Nat) (s : State) : (s.reach d).thermal = s.thermal := rfl
@[simp] theorem State.engine_reach (d : Nat) (s : State) : (s.reach d).engine = s.engine := rfl
@[simp] theorem State.tracker_reach (d : Nat) (s : State) : (s.reach d).tracker = s.tracker := rfl
@[simp] theorem State.verdict_reach (d : Nat) (s : State) : (s.reach d).verdict = s.verdict := rfl
@[simp] theorem State.report_reach (d : Nat) (s : State) : (s.reach d).report = s.report := rfl
@[simp] theorem State.store_reach (d : Nat) (s : State) : (s.reach d).store = s.store := rfl
@[simp] theorem State.link_reach (d : Nat) (s : State) : (s.reach d).link = s.link := rfl

end Sys2Proof.Machine
end

