-- ==== Sys2Proof/Laws/Layout.lean ====
section
/-! SUPPORT. What the number at an offset of a payload is, field by field: past the fields before it, and in each coding of R163. -/

namespace Sys2Proof.Machine

set_option Elab.async false

theorem numberAt_right (a b : List Byte) {offset : Nat} (size : Nat) (h : a.length ≤ offset) :
    numberAt (a ++ b) offset size = numberAt b (offset - a.length) size := by
  unfold numberAt; rw [List.drop_append, List.drop_eq_nil_of_le h, List.nil_append]

theorem numberAt_left (a b : List Byte) {offset size : Nat} (h : offset + size ≤ a.length) :
    numberAt (a ++ b) offset size = numberAt a offset size := by
  unfold numberAt
  rw [List.drop_append, List.take_append_of_le_length (by rw [List.length_drop]; omega)]

theorem numberAt_cons (b : Byte) (bs : List Byte) (n size : Nat) : numberAt (b :: bs) (n + 1) size = numberAt bs n size := rfl

theorem numberAt_byte (b : Byte) (bs : List Byte) : numberAt (b :: bs) 0 1 = b.toNat := by simp [numberAt]

theorem numberAt_bytes16 (w : Word16) (bs : List Byte) : numberAt (bytes16 w ++ bs) 0 2 = w.toNat := by
  simp only [numberAt, bytes16, List.cons_append, List.nil_append, List.drop_zero, List.take_succ_cons, List.take_zero,
    List.foldr_cons, List.foldr_nil, BitVec.extractLsb'_toNat]
  have := w.isLt
  simp only [Nat.shiftRight_eq_div_pow]
  omega

theorem numberAt_bytes32 (w : Word32) (bs : List Byte) : numberAt (bytes32 w ++ bs) 0 4 = w.toNat := by
  simp only [numberAt, bytes32, List.cons_append, List.nil_append, List.drop_zero, List.take_succ_cons, List.take_zero,
    List.foldr_cons, List.foldr_nil, BitVec.extractLsb'_toNat]
  have := w.isLt
  simp only [Nat.shiftRight_eq_div_pow]
  omega

theorem numberAt_le16 (n : Nat) (bs : List Byte) : numberAt (le16 n ++ bs) 0 2 = n % 65536 := by
  unfold le16; rw [numberAt_bytes16]; simp

theorem numberAt_le32 (n : Nat) (bs : List Byte) : numberAt (le32 n ++ bs) 0 4 = n % 4294967296 := by
  unfold le32; rw [numberAt_bytes32]; simp

theorem numberAt_leInt (i : Int) (bs : List Byte) : numberAt (leInt i ++ bs) 0 4 = signed32 i := by
  unfold leInt signed32; rw [numberAt_bytes32]; simp [BitVec.toNat_ofInt]

theorem numberAt_le64 (n : Nat) (bs : List Byte) : numberAt (le64 n ++ bs) 0 8 = n % 18446744073709551616 := by
  have e : ∀ a b c d e f g h : Byte, ∀ l : List Byte, numberAt (a :: b :: c :: d :: e :: f :: g :: h :: l) 0 8
      = numberAt (a :: b :: c :: d :: []) 0 4 + 4294967296 * numberAt (e :: f :: g :: h :: []) 0 4 := by
    intro a b c d e f g h l
    simp only [numberAt, List.drop_zero, List.take_succ_cons, List.take_zero, List.foldr_cons, List.foldr_nil]
    omega
  have h1 := numberAt_le32 n []
  have h2 := numberAt_le32 (n / 4294967296) []
  unfold le64
  simp only [le32, bytes32, List.cons_append, List.nil_append, List.append_nil] at h1 h2 ⊢
  rw [e, h1, h2]
  omega

/-- The offset past one byte is one less in the rest. -/
theorem numberAt_past (b : Byte) (bs : List Byte) {offset : Nat} (size : Nat) (h : 1 ≤ offset) :
    numberAt (b :: bs) offset size = numberAt bs (offset - 1) size := by
  obtain ⟨n, rfl⟩ : ∃ n, offset = n + 1 := ⟨offset - 1, by omega⟩
  rfl

theorem le16_length (n : Nat) : (le16 n).length = 2 := rfl
theorem le32_length (n : Nat) : (le32 n).length = 4 := rfl
theorem le64_length (n : Nat) : (le64 n).length = 8 := rfl
theorem leInt_length (i : Int) : (leInt i).length = 4 := rfl

theorem zoneFields_length (z : ClosedZone) : (zoneFields z).length = 25 := by
  simp only [zoneFields, List.length_append, le16_length, leInt_length, List.length_cons, List.length_nil]
  cases z.worst <;> rfl

theorem trendFields_length (e : TrendEntry) : (trendFields e).length = 12 := rfl

/-- The length of fields of one length each. -/
theorem flatMap_length {α : Type} (f : α → List Byte) (n : Nat) (h : ∀ x, (f x).length = n) (xs : List α) :
    (xs.flatMap f).length = n * xs.length := by
  induction xs with
  | nil => rfl
  | cons x rest ih => rw [List.flatMap_cons, List.length_append, h, ih, List.length_cons, Nat.mul_succ]; omega

/-- The byte of a number (R163). -/
theorem byte_toNat (n : Nat) : (byte n).toNat = n % 256 := by simp [byte]

/-- The byte of an index (R163). -/
theorem byte_index {n : Nat} (i : Fin n) (h : n ≤ 256) : (byte i.val).toNat = i.val := by rw [byte_toNat]; have := i.isLt; omega

/-- The byte of a yes or no (R163). -/
theorem yesNo_toNat (b : Bool) : (yesNo b).toNat = b.toNat := by cases b <;> rfl

/-- The byte of an index is read back as the index. -/
theorem indexOf_eq {n : Nat} {b : Byte} {i : Fin n} (h : b.toNat = i.val) : indexOf n b = some i := by
  unfold indexOf; rw [dif_pos (by have := i.isLt; omega)]; congr 1; exact Fin.ext h

/-- The n-th of fields of one length each. -/
theorem numberAt_flatMap {α : Type} (f : α → List Byte) (size : Nat) (hf : ∀ x, (f x).length = size) : ∀ (xs : List α) (n : Nat)
    (h : n < xs.length), numberAt (xs.flatMap f) (size * n) size = numberAt (f xs[n]) 0 size
  | x :: rest, 0, _ => by rw [List.flatMap_cons, Nat.mul_zero, numberAt_left _ _ (by rw [hf]; omega)]; rfl
  | x :: rest, n + 1, h => by
    rw [List.flatMap_cons, numberAt_right _ _ _ (by rw [hf, Nat.mul_succ]; omega), hf, Nat.mul_succ, Nat.add_sub_cancel,
      numberAt_flatMap f size hf rest n (by simpa using h)]
    rfl

end Sys2Proof.Machine
end

