-- ==== Sys2Proof/Laws/Lists.lean ====
section
/-! SUPPORT. What the shared operations over lists give: sorting, the smallest gap of a closed-zone list, a window's points, a
spread, a last billet (R14, R76, R108, R122, R124). -/

namespace Sys2Proof.Machine

set_option Elab.async false

/-- The last billet of a length: the greatest of the first billet and those of its candidates (R122). -/
theorem lastBilletOf_spec (first : Nat) (cs : List ClosedZone) :
    (lastBilletOf first cs = first ∨ ∃ z ∈ cs, z.billet = some (lastBilletOf first cs)) ∧ first ≤ lastBilletOf first cs
      ∧ ∀ z ∈ cs, ∀ n, z.billet = some n → n ≤ lastBilletOf first cs := by
  induction cs generalizing first with
  | nil => simp [lastBilletOf]
  | cons y ys ih =>
    unfold lastBilletOf at *
    simp only [List.foldl_cons]
    cases hy : y.billet with
    | none =>
      obtain ⟨a, b, c⟩ := ih first
      refine ⟨a.imp id fun ⟨z, hz, e⟩ => ⟨z, List.mem_cons_of_mem _ hz, e⟩, b, fun z hz n e => ?_⟩
      rcases List.mem_cons.1 hz with rfl | hz
      · rw [hy] at e; cases e
      · exact c z hz n e
    | some m =>
      obtain ⟨a, b, c⟩ := ih (max first m)
      dsimp only
      generalize List.foldl _ (max first m) ys = l at *
      refine ⟨?_, by omega, fun z hz n e => ?_⟩
      · rcases a with a | ⟨z, hz, e⟩
        · by_cases hm : m ≤ first
          · left; omega
          · right; exact ⟨y, List.mem_cons_self, by rw [hy, a]; congr 1; omega⟩
        · right; exact ⟨z, List.mem_cons_of_mem _ hz, e⟩
      · rcases List.mem_cons.1 hz with rfl | hz
        · rw [hy] at e; cases e; omega
        · exact c z hz n e

/-- Insertion adds its element. -/
theorem insertBy_perm {α} (le : α → α → Bool) (x : α) (l : List α) : (insertBy le x l).Perm (x :: l) := by
  induction l with
  | nil => exact .refl _
  | cons y ys ih => unfold insertBy; split; exact .refl _; exact (ih.cons y).trans (.swap _ _ _)

/-- Sorting permutes. -/
theorem sortBy_perm {α} (le : α → α → Bool) (l : List α) : (sortBy le l).Perm l := by
  induction l with
  | nil => exact .refl _
  | cons y ys ih => unfold sortBy; exact (insertBy_perm _ _ _).trans (ih.cons y)

/-- Insertion keeps a list ordered by a relation that the test decides, ties included. -/
theorem insertBy_pairwise {α} {le : α → α → Bool} {R : α → α → Prop} (htr : ∀ a b c, R a b → R b c → R a c) (x : α) {l : List α}
    (h1 : ∀ y ∈ l, le x y = true → R x y) (h2 : ∀ y ∈ l, le x y = false → R y x) (h : l.Pairwise R) : (insertBy le x l).Pairwise R := by
  induction l with
  | nil => simp [insertBy]
  | cons y ys ih =>
    unfold insertBy
    rw [List.pairwise_cons] at h
    split
    · rename_i hle
      have hxy := h1 y List.mem_cons_self hle
      refine List.pairwise_cons.2 ⟨fun z hz => ?_, List.pairwise_cons.2 h⟩
      rcases List.mem_cons.1 hz with rfl | hz
      · exact hxy
      · exact htr _ _ _ hxy (h.1 z hz)
    · rename_i hle
      have hyx := h2 y List.mem_cons_self (by simpa using hle)
      refine List.pairwise_cons.2 ⟨fun z hz => ?_, ih (fun y hy => h1 y (List.mem_cons_of_mem _ hy)) (fun y hy => h2 y (List.mem_cons_of_mem _ hy)) h.2⟩
      rcases List.mem_cons.1 ((insertBy_perm _ _ _).mem_iff.1 hz) with rfl | hz
      · exact hyx
      · exact h.1 z hz

/-- The smallest gap is at or below every gap between neighbours (R108). -/
theorem smallestGap_le : ∀ (pre post : List ClosedZone) (y z : ClosedZone), ∃ g, smallestGap (pre ++ y :: z :: post) = some g ∧ g ≤ gapOf y z
  | [], post, y, z => by
    show ∃ g, smallestGap (y :: z :: post) = _ ∧ _
    simp only [smallestGap]; split
    · exact ⟨_, rfl, Int.le_refl _⟩
    · exact ⟨_, rfl, Int.min_le_left _ _⟩
  | [p], post, y, z => by
    obtain ⟨g, h, hg⟩ := smallestGap_le [] post y z
    show ∃ g, smallestGap (p :: y :: z :: post) = _ ∧ _
    have h : smallestGap (y :: z :: post) = some g := h
    rw [smallestGap, h]; exact ⟨_, rfl, Int.le_trans (Int.min_le_right _ _) hg⟩
  | p :: q :: pre, post, y, z => by
    obtain ⟨g, h, hg⟩ := smallestGap_le (q :: pre) post y z
    show ∃ g, smallestGap (p :: q :: (pre ++ y :: z :: post)) = _ ∧ _
    have h : smallestGap (q :: (pre ++ y :: z :: post)) = some g := h
    rw [smallestGap, h]; exact ⟨_, rfl, Int.le_trans (Int.min_le_right _ _) hg⟩

/-- The smallest gap is one between neighbours (R108). -/
theorem smallestGap_mem : ∀ (zs : List ClosedZone) (g : Int), smallestGap zs = some g → ∃ pre y z post, zs = pre ++ y :: z :: post ∧ g = gapOf y z
  | [], g, h => by simp [smallestGap] at h
  | [_], g, h => by simp [smallestGap] at h
  | a :: b :: rest, g, h => by
    rw [smallestGap] at h
    split at h
    · cases h; exact ⟨[], a, b, rest, rfl, rfl⟩
    · rename_i g' hg'
      obtain ⟨pre, y, z, post, e, eg⟩ := smallestGap_mem (b :: rest) g' hg'
      cases h
      by_cases hle : gapOf a b ≤ g'
      · exact ⟨[], a, b, rest, rfl, Int.min_eq_left hle⟩
      · exact ⟨a :: pre, y, z, post, by rw [e]; rfl, by rw [Int.min_eq_right (by omega)]; exact eg⟩

/-- The first pair of neighbours with the gap is joined (R108). -/
theorem joinAt_first (g : Int) : ∀ (before after : List ClosedZone) (a b : ClosedZone), gapOf a b = g →
    (∀ pre post y z, before ++ a :: b :: after = pre ++ y :: z :: post → gapOf y z = g → before.length ≤ pre.length) →
    joinAt g (before ++ a :: b :: after) = before ++ joinZones a b :: after
  | [], after, a, b, h, _ => by show joinAt g (a :: b :: after) = _; simp [joinAt, h]
  | [p], after, a, b, h, hf => by
    show joinAt g (p :: a :: b :: after) = _
    have : gapOf p a ≠ g := fun e => by have := hf [] (b :: after) p a rfl e; simp at this
    have ih : joinAt g (a :: b :: after) = _ := joinAt_first g [] after a b h (fun _ _ _ _ _ _ => Nat.zero_le _)
    rw [joinAt, if_neg this, ih]; rfl
  | p :: q :: before, after, a, b, h, hf => by
    show joinAt g (p :: q :: (before ++ a :: b :: after)) = _
    have : gapOf p q ≠ g := fun e => by have := hf [] (before ++ a :: b :: after) p q rfl e; simp at this
    have ih : joinAt g (q :: (before ++ a :: b :: after)) = _ := joinAt_first g (q :: before) after a b h (fun pre post y z e eg => by
      have := hf (p :: pre) post y z (congrArg (p :: ·) e) eg
      simpa using this)
    rw [joinAt, if_neg this, ih]; rfl

/-- The points of a window, column by column (R14). -/
theorem pointsFrom_eq (h : HeadRecord) (curve : Vector Int 17) (w : Window) (codes : List Nat) : ∀ (n : Nat),
    pointsFrom h curve w n codes = ((List.range' n codes.length).filter fun column =>
        decide (w.first ≤ column ∧ column ≤ w.last ∧ 1 ≤ codes.getD (column - n) 0 ∧ codes.getD (column - n) 0 ≤ 65534)).map
      fun column => framePoint h curve column (codes.getD (column - n) 0) := by
  induction codes with
  | nil => intro n; rfl
  | cons r rest ih =>
    intro n
    rw [List.length_cons, List.range'_succ, List.filter_cons]
    unfold pointsFrom
    rw [ih (n + 1)]
    have hc : ∀ m ∈ List.range' (n + 1) rest.length, (r :: rest).getD (m - n) 0 = rest.getD (m - (n + 1)) 0 := by
      intro m hm
      have := List.mem_range'_1.1 hm
      have e : m - n = (m - (n + 1)) + 1 := by omega
      rw [e]; rfl
    have hrest : ((List.range' (n + 1) rest.length).filter fun column =>
        decide (w.first ≤ column ∧ column ≤ w.last ∧ 1 ≤ (r :: rest).getD (column - n) 0 ∧ (r :: rest).getD (column - n) 0 ≤ 65534)).map
          (fun column => framePoint h curve column ((r :: rest).getD (column - n) 0))
        = ((List.range' (n + 1) rest.length).filter fun column =>
        decide (w.first ≤ column ∧ column ≤ w.last ∧ 1 ≤ rest.getD (column - (n + 1)) 0 ∧ rest.getD (column - (n + 1)) 0 ≤ 65534)).map
          (fun column => framePoint h curve column (rest.getD (column - (n + 1)) 0)) := by
      rw [List.filter_congr (fun m hm => by rw [hc m hm])]
      exact List.map_congr_left (fun m hm => by rw [hc m (List.mem_filter.1 hm).1])
    have h0 : (r :: rest).getD (n - n) 0 = r := by rw [Nat.sub_self]; rfl
    rw [← hrest]
    dsimp only
    simp only [h0]
    by_cases hk : w.first ≤ n ∧ n ≤ w.last ∧ 1 ≤ r ∧ r ≤ 65534
    · have : (decide (w.first ≤ n ∧ n ≤ w.last) && validCode r) = true := by simp [validCode]; omega
      rw [if_pos this, if_pos (by simpa using hk)]; simp only [List.map_cons, h0]
    · have : ¬ (decide (w.first ≤ n ∧ n ≤ w.last) && validCode r) = true := by simp [validCode]; omega
      rw [if_neg this, if_neg (by simpa using hk)]

/-- The spread of a list is its greatest element less its least (R76). -/
theorem spread_eq (us : List Int) (h : Int) (hs : ∃ a ∈ us, ∃ b ∈ us, (∀ y ∈ us, a ≤ y ∧ y ≤ b) ∧ h = b - a) : spread us = h := by
  obtain ⟨a, ha, b, hb, hab, rfl⟩ := hs
  cases us with
  | nil => cases ha
  | cons x rest =>
    have hmax : ∀ (l : List Int) (x : Int), (∀ y ∈ x :: l, y ≤ l.foldl max x) ∧ l.foldl max x ∈ x :: l := by
      intro l; induction l with
      | nil => intro x; simp
      | cons z zs ih =>
        intro x
        obtain ⟨h1, h2⟩ := ih (max x z)
        simp only [List.foldl_cons]
        have hx := h1 (max x z) (by simp)
        refine ⟨fun y hy => ?_, ?_⟩
        · rcases List.mem_cons.1 hy with rfl | hy
          · omega
          · rcases List.mem_cons.1 hy with rfl | hy
            · omega
            · exact h1 y (by simp [hy])
        · rcases List.mem_cons.1 h2 with e | e
          · rw [e]; rcases Int.le_total x z with q | q
            · rw [Int.max_eq_right q]; simp
            · rw [Int.max_eq_left q]; simp
          · simp [e]
    have hmin : ∀ (l : List Int) (x : Int), (∀ y ∈ x :: l, l.foldl min x ≤ y) ∧ l.foldl min x ∈ x :: l := by
      intro l; induction l with
      | nil => intro x; simp
      | cons z zs ih =>
        intro x
        obtain ⟨h1, h2⟩ := ih (min x z)
        simp only [List.foldl_cons]
        have hx := h1 (min x z) (by simp)
        refine ⟨fun y hy => ?_, ?_⟩
        · rcases List.mem_cons.1 hy with rfl | hy
          · omega
          · rcases List.mem_cons.1 hy with rfl | hy
            · omega
            · exact h1 y (by simp [hy])
        · rcases List.mem_cons.1 h2 with e | e
          · rw [e]; rcases Int.le_total x z with q | q
            · rw [Int.min_eq_left q]; simp
            · rw [Int.min_eq_right q]; simp
          · simp [e]
    have m1 := hmax rest x
    have m2 := hmin rest x
    have := m1.1 b hb; have := m2.1 a ha
    have := hab _ m1.2; have := hab _ m2.2
    show rest.foldl max x - rest.foldl min x = b - a
    omega

end Sys2Proof.Machine
end

