-- ==== Sys2Proof/Laws/Ops.lean ====
section
/-! SUPPORT. What the shared operations answer: the gates of events, requests and zone events, the choice of a slot, the loop of
the trigger generator, the pending-limits list. -/

namespace Sys2Proof.Machine

set_option Elab.async false

theorem State.event_powered {s : State} (k : State → State) (h : s.powered = true) : s.event k = .next (k s) := by
  simp [State.event, h]

theorem State.event_unpowered {s : State} (k : State → State) (h : s.powered = false) : s.event k = .next s := by
  simp [State.event, h]

theorem State.replying_eq (kind : Byte) (t : State) (b : ReplyBody) :
    State.replying kind (t, b) = { t with link := { t.link with reply := some { kind := replyKind kind, body := b } } } := rfl

theorem State.request_serves {s : State} {c : Instr} (k : State → State × ReplyBody) (h : s.serves c) :
    s.request c k = .next ((k s).1.answered c (k s).2) := by
  obtain ⟨hp, ha⟩ := h
  simp [State.request, State.event, hp, ha, State.answered, State.replying, State.withLink]

theorem State.request_unpowered {s : State} (c : Instr) (k : State → State × ReplyBody) (h : s.powered = false) :
    s.request c k = .next s := by
  simp [State.request, State.event, h]

/-- A request that the link port does not let be served changes nothing. -/
theorem State.request_turned {s : State} (c : Instr) (k : State → State × ReplyBody) (h : s.link.admits c = false) :
    s.request c k = .next s := by
  simp [State.request, State.event, h]

/-- A request answers the state it finds, or that of its service with the reply. -/
theorem State.request_cases (s : State) (c : Instr) (k : State → State × ReplyBody) :
    s.request c k = .next s ∨ (s.serves c ∧ s.request c k = .next ((k s).1.answered c (k s).2)) := by
  by_cases hp : s.powered = true
  · by_cases ha : s.link.admits c = true
    · exact .inr ⟨⟨hp, ha⟩, State.request_serves k ⟨hp, ha⟩⟩
    · exact .inl (State.request_turned c k (by simpa using ha))
  · exact .inl (State.request_unpowered c k (by simpa using hp))

/-- An event answers the state it finds, or that of its effect. -/
theorem State.event_cases (s : State) (k : State → State) :
    s.event k = .next s ∨ (s.powered = true ∧ s.event k = .next (k s)) := by
  by_cases hp : s.powered = true
  · exact .inr ⟨hp, State.event_powered k hp⟩
  · exact .inl (State.event_unpowered k (by simpa using hp))

theorem State.takeEvent_offered {s : State} {e : TrackerEvent} (k : State → State) (h : s.offers e) :
    s.takeEvent e k = k s.received := by
  obtain ⟨pending, powered, now, runout, scan, thermal, engine, tracker, verdict, report, store, link⟩ := s
  obtain ⟨stale, persistence, last, evaluation, sent⟩ := engine
  cases sent with
  | nil => rfl
  | cons head rest =>
      have hh : head = e := by simpa [State.offers] using h
      simp [State.takeEvent, State.received, hh, State.withEngine]

/-- A zone event is dropped, or taken from the state with the event off the outbox. -/
theorem State.takeEvent_cases (s : State) (e : TrackerEvent) (k : State → State) :
    s.takeEvent e k = s ∨ (s.offers e ∧ s.takeEvent e k = k s.received) := by
  by_cases h : s.offers e
  · exact .inr ⟨h, State.takeEvent_offered k h⟩
  · refine .inl ?_
    unfold State.takeEvent
    split
    · rename_i hs; exact absurd (.inl hs) h
    · rename_i head rest hs
      split
      · rename_i he; exact absurd (.inr (by simp [hs, he])) h
      · rfl

/-- A FREE slot found is FREE. -/
theorem ScanAssembler.lowestFree_free {a : ScanAssembler} {i : Fin 4} (h : a.lowestFree = some i) : a.slots[i] = none := by
  simpa using List.find?_some h

/-- With no FREE slot found every slot is held. -/
theorem ScanAssembler.lowestFree_none {a : ScanAssembler} (h : a.lowestFree = none) (i : Fin 4) : a.slots[i].isSome = true := by
  have := List.find?_eq_none.mp h i (by revert i; decide)
  cases hk : a.slots[i] with
  | none => simp [hk] at this
  | some k => rfl

/-- The oldest slot that satisfies `p` satisfies it. -/
theorem ScanAssembler.oldest_holds {a : ScanAssembler} {p : Slot → Bool} {i : Fin 4} (h : a.oldest p = some i) : a.holds p i = true := by
  have aux : ∀ (l : List (Fin 4)) (b : Option (Fin 4)), (∀ j, b = some j → a.holds p j = true) →
      l.foldl (fun best i => if a.holds p i && (match best with
        | some j => decide (a.age j < a.age i)
        | none => true) then some i else best) b = some i → a.holds p i = true := by
    intro l
    induction l with
    | nil => intro b hb hi; exact hb i hi
    | cons x xs ih =>
        intro b hb hi
        refine ih _ ?_ hi
        intro j hj
        by_cases hx : a.holds p x = true
        · cases b with
          | none => simp only [hx, Bool.and_true, if_true] at hj; exact (Option.some.inj hj) ▸ hx
          | some m =>
              simp only [hx, Bool.true_and] at hj
              split at hj
              · exact (Option.some.inj hj) ▸ hx
              · exact hb j hj
        · simp only [hx, Bool.false_and, Bool.false_eq_true, if_false] at hj
          exact hb j hj
  exact aux slotsInOrder none (by simp) h

/-- The slot that `holds` finds. -/
theorem ScanAssembler.holds_slot {a : ScanAssembler} {p : Slot → Bool} {i : Fin 4} (h : a.holds p i = true) :
    ∃ k, a.slots[i] = some k ∧ p k = true := by
  unfold ScanAssembler.holds at h
  split at h
  · rename_i k hk; exact ⟨k, hk, h⟩
  · cases h

/-- What one crossing of the pitch does to the generator (R24). -/
theorem State.runout_crossPitch (s : State) :
    s.crossPitch.runout =
      { s.runout with remainder := s.runout.remainder - s.runout.pitch, pitch := s.runout.nextPitch.getD s.runout.pitch,
                      nextPitch := none } := by
  unfold State.crossPitch State.distanceTrigger
  dsimp only
  split <;> simp

/-- The loop of R24 ends with the remainder below the pitch in force. -/
theorem State.crossings_below (n : Nat) (s : State) (hr : s.runout.remainder ≤ n) (hp : 0 < s.runout.pitch)
    (hn : ∀ p, s.runout.nextPitch = some p → 0 < p) :
    (State.crossings n s).runout.remainder < (State.crossings n s).runout.pitch := by
  induction n generalizing s with
  | zero => simp only [State.crossings]; omega
  | succ n ih =>
      unfold State.crossings
      split
      · rename_i hle
        apply ih
        · rw [State.runout_crossPitch]; dsimp only; omega
        · rw [State.runout_crossPitch]; dsimp only
          cases hq : s.runout.nextPitch with
          | none => simpa using hp
          | some q => simpa using hn q hq
        · rw [State.runout_crossPitch]; simp
      · omega

/-- The pending-limits list after it has been applied is empty. -/
theorem CardStore.applyPending_empty (x : CardStore) (f : Fin 32) : x.applyPending.pendingLimits[f] = none := by
  unfold CardStore.applyPending
  split
  · rename_i h
    have := List.all_eq_true.mp h x.pendingLimits[f] (by simp)
    simpa using this
  · simp [CardStore.dropPending]

/-- Applying the pending-limits list touches no bank, boot setting or engine. -/
theorem CardStore.applyPending_rest (x : CardStore) :
    x.applyPending.banks = x.banks ∧ x.applyPending.boot = x.boot ∧ x.applyPending.engine = x.engine
      ∧ x.applyPending.lastOutcome = x.lastOutcome := by
  unfold CardStore.applyPending
  split <;> simp [CardStore.dropPending, CardStore.edit]

/-- A boot-bank setting written under suspension (R148, R150). -/
theorem CardStore.suspending_boot (x : CardStore) (b : Option (Fin 8)) :
    (x.suspending fun y => { y with boot := b }) = { x.resume with boot := b } := by
  unfold CardStore.suspending CardStore.suspend CardStore.resume
  cases he : x.engine <;> simp [he]

/-- A card taken from a bank under suspension (R145, R148). -/
theorem CardStore.suspending_card (x : CardStore) (c : Card) (d : Word32) :
    (x.suspending fun y => { y with card := c, digest := d }) = { x.resume with card := c, digest := d } := by
  unfold CardStore.suspending CardStore.suspend CardStore.resume
  cases he : x.engine <;> simp [he]

/-- A bank read under suspension (R145 case 5, R148). -/
theorem CardStore.suspending_id (x : CardStore) : x.suspending id = x.resume := by
  unfold CardStore.suspending CardStore.suspend CardStore.resume
  cases he : x.engine <;> simp [he]
  rw [← he]

/-- A lock written under suspension (R148, R149). -/
theorem CardStore.suspending_lock (x : CardStore) (i : Fin 8) (l : Lock) :
    (x.suspending fun y => y.putBank i { y.banks[i] with lock := l }) = x.resume.putBank i { x.banks[i] with lock := l } := by
  unfold CardStore.suspending CardStore.suspend CardStore.resume CardStore.putBank
  cases he : x.engine <;> simp [he]

/-- A store that is not SUSPENDED needs no resumption. -/
theorem CardStore.resume_eq (x : CardStore) (h : ∀ j, x.engine ≠ .suspended j) : x.resume = x := by
  unfold CardStore.resume
  split
  · rename_i j hj; exact absurd hj (h j)
  · rfl

end Sys2Proof.Machine
end

