-- ==== Sys2Proof/Laws/PerInstr.lean ====
section
/-! SUPPORT. The family Request: the payload that a line controller sends for a request has the length that its kind requires
and is read back as that request (R154, R157, R163, R166), one lemma for each command. -/

namespace Sys2Proof.Laws.Request

set_option Elab.async false

open Sys2Proof.Machine

/-- A well-formed request is read back from its own payload; a command that is no request has no kind. -/
def Statement (i : Instr) : Prop :=
  i.wf = true → ∀ k, kindOf i = some k → lengthOf k = some (payloadOf i).length ∧ requestOf k (payloadOf i) = some i

theorem words32_flatMap (ps : List Word32) (pre suf : List Byte) (n : Nat) (hn : ps.length = n) :
    words32At (pre ++ (ps.flatMap bytes32 ++ suf)) pre.length n = ps := by
  induction n generalizing ps pre with
  | zero => cases ps with
    | nil => rfl
    | cons _ _ => cases hn
  | succ n ih => cases ps with
    | nil => cases hn
    | cons q qs =>
        have hq : word32At (pre ++ ((q :: qs).flatMap bytes32 ++ suf)) pre.length = q := by
          simp [word32At, byteAt, bytes32, word32_join]
        have := ih qs (pre ++ bytes32 q) (by simpa using hn)
        simp only [List.append_assoc, List.length_append, show (bytes32 q).length = 4 from rfl] at this
        rw [words32At, hq]
        simp only [List.flatMap_cons, List.append_assoc, this]

theorem powerOn (straps : Straps) (selectHigh : Bool) : Statement (.powerOn straps selectHigh) := by intro _ k h; cases h
theorem forwardCount (channel : Puller) : Statement (.forwardCount channel) := by intro _ k h; cases h
theorem reverseCount (channel : Puller) : Statement (.reverseCount channel) := by intro _ k h; cases h
theorem pullerSelectChange : Statement .pullerSelectChange := by intro _ k h; cases h
theorem cutEdge (highMicros : Nat) : Statement (.cutEdge highMicros) := by intro _ k h; cases h
theorem lostCutReport : Statement .lostCutReport := by intro _ k h; cases h
theorem takeCut : Statement .takeCut := by intro _ k h; cases h
theorem lineFrame (bytes : List Byte) : Statement (.lineFrame bytes) := by intro _ k h; cases h
theorem lineWaitExpiry (slot : Fin 4) : Statement (.lineWaitExpiry slot) := by intro _ k h; cases h
theorem strandEvaluation (strand : Fin 4) : Statement (.strandEvaluation strand) := by intro _ k h; cases h
theorem slotEvaluationEnd : Statement .slotEvaluationEnd := by intro _ k h; cases h
theorem scanEvent (e : ScanEvent) : Statement (.scanEvent e) := by intro _ k h; cases h
theorem zoneOpenEvent (e : ZoneOpen) : Statement (.zoneOpenEvent e) := by intro _ k h; cases h
theorem zoneUpdateEvent (e : ZoneUpdate) : Statement (.zoneUpdateEvent e) := by intro _ k h; cases h
theorem zoneCloseEvent (e : ZoneClose) : Statement (.zoneCloseEvent e) := by intro _ k h; cases h
theorem pyroSample (channel : Fin 4) (code : BitVec 12) : Statement (.pyroSample channel code) := by intro _ k h; cases h
theorem holdTimerExpiry (strand : Fin 4) : Statement (.holdTimerExpiry strand) := by intro _ k h; cases h
theorem checkLimitExpiry : Statement .checkLimitExpiry := by intro _ k h; cases h
theorem bankStoreEnd (found : StoreRead) : Statement (.bankStoreEnd found) := by intro _ k h; cases h
theorem watchdogExpiry : Statement .watchdogExpiry := by intro _ k h; cases h
theorem frameGapTimeout : Statement .frameGapTimeout := by intro _ k h; cases h
theorem linkFrame (bytes : List Byte) : Statement (.linkFrame bytes) := by intro _ k h; cases h
theorem replySent : Statement .replySent := by intro _ k h; cases h
theorem status : Statement .status := by
  intro _ k hk
  cases hk
  exact ⟨rfl, rfl⟩
theorem ident : Statement .ident := by
  intro _ k hk
  cases hk
  exact ⟨rfl, rfl⟩
theorem setHead (head : Byte) (record : RawHead) : Statement (.setHead head record) := by
  intro _ k hk
  cases hk
  exact ⟨by simp [lengthOf, payloadOf, headBytes], by simp [requestOf, payloadOf, headAt, headBytes]⟩
theorem setCurve (head : Byte) (points : List Word32) : Statement (.setCurve head points) := by
  intro hw k hk
  cases hk
  have hl : points.length = 17 := by simpa [Instr.wf] using hw
  have hb : ∀ ps : List Word32, (ps.flatMap bytes32).length = 4 * ps.length := by
    intro ps
    induction ps with
    | nil => rfl
    | cons q qs ih => simp only [List.flatMap_cons, List.length_append, ih, List.length_cons, show (bytes32 q).length = 4 from rfl]; omega
  have := words32_flatMap points [head] [] 17 hl
  simp only [List.append_nil, List.singleton_append, List.length_singleton] at this
  exact ⟨by simp [lengthOf, payloadOf, hb, hl], by simp [requestOf, payloadOf, this]⟩
theorem setFeature (feature : Byte) (record : RawFeature) : Statement (.setFeature feature record) := by
  intro _ k hk
  cases hk
  exact ⟨by simp [lengthOf, payloadOf, featureBytes, limitsBytes], by simp [requestOf, payloadOf, featureAt, limitsAt, featureBytes, limitsBytes]⟩
theorem clearFeature (feature : Byte) : Statement (.clearFeature feature) := by
  intro _ k hk
  cases hk
  exact ⟨rfl, by simp [requestOf, payloadOf]⟩
theorem setLimits (feature : Byte) (limits : RawLimits) : Statement (.setLimits feature limits) := by
  intro _ k hk
  cases hk
  exact ⟨by simp [lengthOf, payloadOf, limitsBytes], by simp [requestOf, payloadOf, limitsAt, limitsBytes]⟩
theorem setThermal (record : RawThermal) : Statement (.setThermal record) := by
  intro _ k hk
  cases hk
  exact ⟨by simp [lengthOf, payloadOf, thermalBytes], by simp [requestOf, payloadOf, thermalAt, thermalBytes]⟩
theorem setLine (record : RawLine) : Statement (.setLine record) := by
  intro _ k hk
  cases hk
  exact ⟨by simp [lengthOf, payloadOf, lineBytes], by simp [requestOf, payloadOf, lineAt, lineBytes]⟩
theorem setIdentity (die : Word32) (revision : Word16) (alloy : Byte) (strands : Byte) : Statement (.setIdentity die revision alloy strands) := by
  intro _ k hk
  cases hk
  exact ⟨rfl, by simp [requestOf, payloadOf]⟩
theorem readCard (part : Byte) (index : Byte) : Statement (.readCard part index) := by
  intro _ k hk
  cases hk
  exact ⟨rfl, by simp [requestOf, payloadOf]⟩
theorem bankLoad (bank : Byte) : Statement (.bankLoad bank) := by
  intro _ k hk
  cases hk
  exact ⟨rfl, by simp [requestOf, payloadOf]⟩
theorem bankStore (bank : Byte) : Statement (.bankStore bank) := by
  intro _ k hk
  cases hk
  exact ⟨rfl, by simp [requestOf, payloadOf]⟩
theorem bankLock (bank : Byte) (mode : Byte) : Statement (.bankLock bank mode) := by
  intro _ k hk
  cases hk
  exact ⟨rfl, by simp [requestOf, payloadOf]⟩
theorem bankInfo : Statement .bankInfo := by
  intro _ k hk
  cases hk
  exact ⟨rfl, rfl⟩
theorem setBoot (bank : Byte) : Statement (.setBoot bank) := by
  intro _ k hk
  cases hk
  exact ⟨rfl, by simp [requestOf, payloadOf]⟩
theorem runStart : Statement .runStart := by
  intro _ k hk
  cases hk
  exact ⟨rfl, rfl⟩
theorem billetJoin : Statement .billetJoin := by
  intro _ k hk
  cases hk
  exact ⟨rfl, rfl⟩
theorem stop : Statement .stop := by
  intro _ k hk
  cases hk
  exact ⟨rfl, rfl⟩
theorem resume : Statement .resume := by
  intro _ k hk
  cases hk
  exact ⟨rfl, rfl⟩
theorem runEnd : Statement .runEnd := by
  intro _ k hk
  cases hk
  exact ⟨rfl, rfl⟩
theorem runClose : Statement .runClose := by
  intro _ k hk
  cases hk
  exact ⟨rfl, rfl⟩
theorem withdraw (strand : Byte) : Statement (.withdraw strand) := by
  intro _ k hk
  cases hk
  exact ⟨rfl, by simp [requestOf, payloadOf]⟩
theorem setTrigger (mode : Byte) : Statement (.setTrigger mode) := by
  intro _ k hk
  cases hk
  exact ⟨rfl, by simp [requestOf, payloadOf]⟩
theorem triggerOnce : Statement .triggerOnce := by
  intro _ k hk
  cases hk
  exact ⟨rfl, rfl⟩
theorem headCheck (mask : Byte) (exposure : Byte) : Statement (.headCheck mask exposure) := by
  intro _ k hk
  cases hk
  exact ⟨rfl, by simp [requestOf, payloadOf]⟩
theorem headInfo : Statement .headInfo := by
  intro _ k hk
  cases hk
  exact ⟨rfl, rfl⟩
theorem gaugeLatch (mask : Byte) : Statement (.gaugeLatch mask) := by
  intro _ k hk
  cases hk
  exact ⟨rfl, by simp [requestOf, payloadOf]⟩
theorem gaugeRead (strand : Byte) : Statement (.gaugeRead strand) := by
  intro _ k hk
  cases hk
  exact ⟨rfl, by simp [requestOf, payloadOf]⟩
theorem trackRead (strand : Byte) (start : Byte) : Statement (.trackRead strand start) := by
  intro _ k hk
  cases hk
  exact ⟨rfl, by simp [requestOf, payloadOf]⟩
theorem reportRead : Statement .reportRead := by
  intro _ k hk
  cases hk
  exact ⟨rfl, rfl⟩
theorem reportDrop (sequence : Word16) : Statement (.reportDrop sequence) := by
  intro _ k hk
  cases hk
  exact ⟨rfl, by simp [requestOf, payloadOf]⟩
theorem readCounters : Statement .readCounters := by
  intro _ k hk
  cases hk
  exact ⟨rfl, rfl⟩
theorem clearCounters : Statement .clearCounters := by
  intro _ k hk
  cases hk
  exact ⟨rfl, rfl⟩
theorem clearFlags (mask : Word16) (tally : Byte) : Statement (.clearFlags mask tally) := by
  intro _ k hk
  cases hk
  exact ⟨rfl, by simp [requestOf, payloadOf]⟩
theorem setAlarmMask (mask : Word16) : Statement (.setAlarmMask mask) := by
  intro _ k hk
  cases hk
  exact ⟨rfl, by simp [requestOf, payloadOf]⟩
theorem setWatchdog (interval : Word16) : Statement (.setWatchdog interval) := by
  intro _ k hk
  cases hk
  exact ⟨rfl, by simp [requestOf, payloadOf]⟩
theorem forceFailsafe : Statement .forceFailsafe := by
  intro _ k hk
  cases hk
  exact ⟨rfl, rfl⟩
theorem clearFailsafe : Statement .clearFailsafe := by
  intro _ k hk
  cases hk
  exact ⟨rfl, rfl⟩
theorem restart : Statement .restart := by
  intro _ k hk
  cases hk
  exact ⟨rfl, rfl⟩
theorem supplyFailure (landed : Bool) : Statement (.supplyFailure landed) := by intro _ k h; cases h

end Sys2Proof.Laws.Request
end

