-- ==== Sys2Proof/Laws/Rounding.lean ====
section
/-! SUPPORT. Rounding to the nearest integer, ties away from zero (00_scope, Rounding): the model's rounding is it, and it is one. -/

namespace Sys2Proof.Machine

set_option Elab.async false

/-- The rounding of the model is the nearest integer, ties away from zero. -/
theorem roundDiv_rounds (a : Int) (b : Nat) (hb : 0 < b) : Rounds a b (roundDiv a b) := by
  unfold Rounds roundDiv
  have hm := Nat.div_add_mod (2 * a.natAbs + b) (2 * b)
  have hl := Nat.mod_lt (2 * a.natAbs + b) (show 0 < 2 * b by omega)
  generalize (2 * a.natAbs + b) / (2 * b) = q at *
  generalize (2 * a.natAbs + b) % (2 * b) = r at *
  have hq : 2 * b * q = 2 * (b * q) := by rw [Nat.mul_assoc]
  have e : ((q : Int) * b) = ((b * q : Nat) : Int) := by push_cast; rw [Int.mul_comm]
  by_cases h : a < 0
  · simp only [h, if_true, Int.neg_mul, e]
    generalize b * q = m at *
    omega
  · simp only [h, if_false, e]
    generalize b * q = m at *
    omega

/-- Of two roundings of one quotient neither lies above the other. -/
theorem rounds_le {a : Int} {b : Nat} {p q : Int} (hb : 0 < b) (hp : Rounds a b p) (hq : Rounds a b q) : q ≤ p := by
  unfold Rounds at *
  by_cases h : p < q
  · have h1 : p * b + b ≤ q * b := by
      have : (p + 1) * b ≤ q * b := Int.mul_le_mul_of_nonneg_right (by omega) (by omega)
      rw [Int.add_mul] at this; omega
    have h2 : 0 ≤ p * b ∨ q * b ≤ 0 := by
      by_cases hp0 : 0 ≤ p
      · exact .inl (Int.mul_nonneg hp0 (by omega))
      · exact .inr (Int.mul_nonpos_of_nonpos_of_nonneg (a := q) (by
          by_cases hq0 : q ≤ 0
          · exact hq0
          · exfalso
            have h3 : p * b + 2 * b ≤ q * b := by
              have : (p + 2) * b ≤ q * b := Int.mul_le_mul_of_nonneg_right (by omega) (by omega)
              rw [Int.add_mul] at this; exact this
            generalize p * (b : Int) = x at *
            generalize q * (b : Int) = y at *
            omega) (by omega))
    generalize p * (b : Int) = x at *
    generalize q * (b : Int) = y at *
    omega
  · omega

/-- A quotient has one rounding. -/
theorem rounds_unique {a : Int} {b : Nat} {p q : Int} (hb : 0 < b) (hp : Rounds a b p) (hq : Rounds a b q) : p = q :=
  Int.le_antisymm (rounds_le hb hq hp) (rounds_le hb hp hq)

/-- The number that rounds a quotient is the one the model computes. -/
theorem rounds_iff {a : Int} {b : Nat} {q : Int} (hb : 0 < b) : Rounds a b q ↔ q = roundDiv a b :=
  ⟨fun h => rounds_unique hb h (roundDiv_rounds a b hb), fun h => h ▸ roundDiv_rounds a b hb⟩

end Sys2Proof.Machine
end

