-- ==== Sys2Proof/Laws/Triggers.lean ====
section
/-! SUPPORT. What a trigger, a hand-over and the crossing loop can do (R24, R37, R45). -/

namespace Sys2Proof.Machine

set_option Elab.async false

/-- A hand-over is blind to the travel unit. -/
theorem State.tryHandOver_withRunout (s : State) (r : TravelUnit) : (s.withRunout r).tryHandOver = s.tryHandOver.withRunout r := by
  unfold State.tryHandOver
  simp only [State.scan_withRunout]
  by_cases h1 : slotsInOrder.any (s.scan.holds fun k => k.phase == .evaluating) = true
  · simp only [h1, if_true]
  · simp only [h1, Bool.false_eq_true, if_false]
    cases h2 : s.scan.oldest fun _ => true with
    | none => rfl
    | some i =>
      dsimp only
      cases h3 : s.scan.slots[i] with
      | none => rfl
      | some k =>
        dsimp only
        by_cases h4 : k.phase = .closed
        · rw [if_pos h4, if_pos h4]; rfl
        · rw [if_neg h4, if_neg h4]

/-- So is the close of a slot. -/
theorem State.closeSlot_withRunout (s : State) (r : TravelUnit) (i k) : (s.withRunout r).closeSlot i k = (s.closeSlot i k).withRunout r :=
  State.tryHandOver_withRunout (s.withScan (s.scan.putSlot i (some { k with phase := .closed }))) r

/-- So is a forced close. -/
theorem State.forceClose_withRunout (s : State) (r : TravelUnit) : (s.withRunout r).forceClose = s.forceClose.withRunout r := by
  unfold State.forceClose
  simp only [State.scan_withRunout]
  cases h2 : s.scan.oldest fun k => k.phase == .waiting with
  | none => rfl
  | some i =>
    dsimp only
    cases h3 : s.scan.slots[i] with
    | none => rfl
    | some k => exact State.closeSlot_withRunout (s.missHeads k) r i k

/-- So is a distance trigger at a given travel. -/
theorem State.distanceTrigger_withRunout (s : State) (r : TravelUnit) (t : Nat) : (s.withRunout r).distanceTrigger t = (s.distanceTrigger t).withRunout r := by
  unfold State.distanceTrigger
  simp only [State.scan_withRunout]
  cases h : s.scan.lowestFree with
  | some i =>
    show State.takeSlot _ _ _ _ = (State.takeSlot _ _ _ _).withRunout r
    unfold State.takeSlot
    have e : (s.withRunout r).newSlot false t = s.newSlot false t := rfl
    rw [e]; dsimp only
    by_cases h : (s.newSlot false t).expected.isEmpty = true
    · rw [if_pos h, if_pos h]; exact State.closeSlot_withRunout (s.withScan _) r i _
    · rw [if_neg h, if_neg h]; rfl
  | none => exact State.forceClose_withRunout ((s.withScan _).withReport _) r

/-- The remainder set to what it is changes nothing. -/
theorem State.withRunout_remainder_self {s : State} {m : Nat} (h : m = s.runout.remainder) : s.withRunout { s.runout with remainder := m } = s := by
  subst h; rfl

/-- Triggers in a row are blind to the travel unit. -/
theorem State.triggers_withRunout (r : TravelUnit) (g : Nat → Nat) (l : List Nat) (s : State) :
    l.foldl (fun t n => t.distanceTrigger (g n)) (s.withRunout r) = (l.foldl (fun t n => t.distanceTrigger (g n)) s).withRunout r := by
  induction l generalizing s with
  | nil => rfl
  | cons x xs ih => simp only [List.foldl_cons, State.distanceTrigger_withRunout, ih]

/-- A crossing: its trigger, and what it takes off the remainder (R24). -/
theorem State.crossPitch_eq (s : State) : s.crossPitch = (s.distanceTrigger (s.runout.travel - s.runout.remainder + s.runout.pitch)).withRunout
    { s.runout with remainder := s.runout.remainder - s.runout.pitch, pitch := s.runout.nextPitch.getD s.runout.pitch, nextPitch := none } :=
  State.distanceTrigger_withRunout _ _ _

/-- The later travel unit stands. -/
theorem State.withRunout_withRunout (s : State) (a b : TravelUnit) : (s.withRunout a).withRunout b = s.withRunout b := rfl

/-- The crossing loop, with no next pitch: one trigger for each pitch in the remainder, in order (R24). -/
theorem State.crossings_eq (next : Nat) (hn : 0 < next) : ∀ (fuel : Nat) (s : State), s.runout.pitch = next → s.runout.nextPitch = none →
    s.runout.remainder ≤ fuel → s.runout.remainder ≤ s.runout.travel →
    State.crossings fuel s = ((List.range (s.runout.remainder / next)).foldl
      (fun t n => t.distanceTrigger (s.runout.travel - s.runout.remainder + next + n * next)) s).withRunout
        { s.runout with remainder := s.runout.remainder % next }
  | 0, s, hp, hq, hf, ht => by
    have : s.runout.remainder = 0 := by omega
    unfold State.crossings; rw [this, Nat.zero_div, Nat.zero_mod]; exact (State.withRunout_remainder_self this.symm).symm
  | n + 1, s, hp, hq, hf, ht => by
    unfold State.crossings
    by_cases h : s.runout.pitch ≤ s.runout.remainder
    · rw [if_pos h]
      have hr := State.runout_crossPitch s
      have hd : s.runout.remainder / next = (s.runout.remainder - next) / next + 1 := by
        rw [← Nat.add_div_right _ hn]; congr 1; omega
      rw [State.crossings_eq next hn n s.crossPitch (by rw [hr]; simp [hp, hq]) (by rw [hr]) (by rw [hr]; dsimp only; omega) (by rw [hr]; dsimp only; omega)]
      rw [hr]; dsimp only
      rw [hd, List.range_succ_eq_map, List.foldl_cons, List.foldl_map, State.crossPitch_eq, State.triggers_withRunout]
      rw [hp, Nat.zero_mul, Nat.add_zero]
      have e1 : (fun (t : State) (n : Nat) => t.distanceTrigger (s.runout.travel - (s.runout.remainder - next) + next + n * next))
          = (fun (t : State) (n : Nat) => t.distanceTrigger (s.runout.travel - s.runout.remainder + next + (n.succ) * next)) := by
        funext t n; congr 1; rw [Nat.succ_mul]; omega
      rw [e1, State.withRunout_withRunout]
      congr 1
      rw [hq]; simp only [Option.getD_none]
      rw [Nat.mod_eq_sub_mod (show s.runout.remainder ≥ next by omega)]
    · rw [if_neg h]
      rw [Nat.div_eq_of_lt (by omega), Nat.mod_eq_of_lt (by omega)]
      exact (State.withRunout_remainder_self rfl).symm

/-- A forward count that pays off the deficit and grows the travel by the rest (R17). -/
theorem State.advance_eq {s : State} {ch : Puller} {scale : Nat} (h : s.runout.deficit ch < scale) :
    s.advance ch scale = (s.withRunout (s.runout.withDeficit ch 0)).growTravel (scale - s.runout.deficit ch) := by
  unfold State.advance; rw [if_neg (by omega)]

/-- A deficit set leaves every other field that R24 reads. -/
theorem TravelUnit.withDeficit_else (r : TravelUnit) (ch : Puller) (d : Nat) :
    (r.withDeficit ch d).travel = r.travel ∧ (r.withDeficit ch d).remainder = r.remainder
    ∧ (r.withDeficit ch d).pitch = r.pitch ∧ (r.withDeficit ch d).nextPitch = r.nextPitch ∧ (r.withDeficit ch d).mode = r.mode := by
  cases ch <;> exact ⟨rfl, rfl, rfl, rfl, rfl⟩

/-- While a slot is evaluated nothing is handed over (R45). -/
theorem State.tryHandOver_busy {s : State} {j : Fin 4} (h : s.scan.holds (fun k => k.phase == .evaluating) j = true) : s.tryHandOver = s := by
  unfold State.tryHandOver
  rw [if_pos]
  exact List.any_eq_true.2 ⟨j, by clear h; revert j; decide, h⟩

/-- Else the oldest slot is, where it is CLOSED (R45). -/
theorem State.tryHandOver_oldest {s : State} {j : Fin 4} {k : Slot} (h : ∀ i, s.scan.holds (fun k => k.phase == .evaluating) i = false)
    (ho : s.scan.oldest (fun _ => true) = some j) (hk : s.scan.slots[j] = some k) :
    s.tryHandOver = if k.phase = .closed then s.handOver j k else s := by
  unfold State.tryHandOver
  rw [if_neg, ho]
  · dsimp only; rw [hk]
  · intro hh; obtain ⟨i, -, hi⟩ := List.any_eq_true.1 hh; rw [h i] at hi; cases hi

/-- The first of four indices that pass. -/
theorem find_lowest (f : Fin 4 → Bool) (i : Fin 4) (h : f i = true) (hl : ∀ j, j < i → f j = false) : [0, 1, 2, 3].find? f = some i := by
  have p : ∀ (x : Fin 4) l, f x = false → (x :: l).find? f = l.find? f := fun x l hx => List.find?_cons_of_neg (by rw [hx]; decide)
  match i, h, hl with
  | 0, h, hl => exact List.find?_cons_of_pos h
  | 1, h, hl => rw [p 0 _ (hl 0 (by decide))]; exact List.find?_cons_of_pos h
  | 2, h, hl => rw [p 0 _ (hl 0 (by decide)), p 1 _ (hl 1 (by decide))]; exact List.find?_cons_of_pos h
  | 3, h, hl => rw [p 0 _ (hl 0 (by decide)), p 1 _ (hl 1 (by decide)), p 2 _ (hl 2 (by decide))]; exact List.find?_cons_of_pos h

/-- The lowest FREE slot (R37). -/
theorem ScanAssembler.lowestFree_eq {a : ScanAssembler} {i : Fin 4} (h : a.slots[i] = none) (hl : ∀ j, j < i → a.slots[j].isSome = true) : a.lowestFree = some i :=
  find_lowest (fun i => a.slots[i].isNone) i (by rw [h]; rfl) (fun j hj => by
    have := hl j hj; cases hh : a.slots[j] with
    | none => rw [hh] at this; cases this
    | some _ => rfl)

/-- The trigger number after a trigger (R35). -/
theorem nextTriggerNumber_eq (n : Nat) : nextTriggerNumber n = if n < 65534 then n + 1 else 0 := by unfold nextTriggerNumber; split <;> split <;> omega

/-- All that a hand-over may do (R45). -/
theorem State.tryHandOver_cases (s : State) : s.tryHandOver = s ∨ ∃ j k, s.scan.slots[(j : Fin 4)] = some k ∧ k.phase = .closed ∧ s.tryHandOver = s.handOver j k := by
  unfold State.tryHandOver
  split
  · exact .inl rfl
  · split
    · exact .inl rfl
    · rename_i j hj
      split
      · exact .inl rfl
      · rename_i k hk
        split
        · rename_i h; exact .inr ⟨j, k, hk, h, rfl⟩
        · exact .inl rfl

/-- What a table with one entry replaced holds. -/
theorem setAt_get {n} {α} (v : Vector α n) (i j : Fin n) (x : α) : (setAt v i x)[j] = if j = i then x else v[j] := by
  unfold setAt
  show (v.set i.val x i.isLt)[j.val] = _
  rw [Vector.getElem_set]
  by_cases h : j = i
  · simp [h]
  · rw [if_neg h, if_neg (fun e => h (Fin.ext e.symm))]; rfl

/-- With every slot held none is FREE. -/
theorem ScanAssembler.lowestFree_of_all_held {a : ScanAssembler} (h : ∀ i, a.slots[(i : Fin 4)].isSome = true) : a.lowestFree = none := by
  unfold ScanAssembler.lowestFree; rw [List.find?_eq_none]; intro i _ hh; have := h i
  cases hk : a.slots[i] with
  | none => rw [hk] at this; cases this
  | some k => rw [hk] at hh; cases hh

/-- Age is counted from the slots and the next number alone (log entry 17). -/
theorem ScanAssembler.oldest_congr (a b : ScanAssembler) (h1 : a.slots = b.slots) (h2 : a.nextNumber = b.nextNumber) (p) : a.oldest p = b.oldest p := by
  cases a; cases b; cases h1; cases h2; rfl

/-- A fold that keeps the first of the greatest finds it: earlier elements that pass are below it, later ones not above it. -/
theorem oldest_fold (pass : Fin 4 → Bool) (age : Fin 4 → Nat) (j : Fin 4) (pre post : List (Fin 4)) (hj : pass j = true)
    (before : ∀ i ∈ pre, pass i = true → age i < age j) (after : ∀ i ∈ post, pass i = true → age i ≤ age j) :
    (pre ++ j :: post).foldl (fun best i =>
      if pass i && (match best with
        | some b => decide (age b < age i)
        | none => true)
      then some i else best) (none : Option (Fin 4)) = some j := by
  have hpre : ∀ (l : List (Fin 4)) (b : Option (Fin 4)), (∀ i ∈ l, pass i = true → age i < age j) → (∀ i, b = some i → age i < age j) →
      ∀ i, l.foldl (fun best i =>
        if pass i && (match best with
          | some b => decide (age b < age i)
          | none => true)
        then some i else best) b = some i → age i < age j := by
    intro l
    induction l with
    | nil => exact fun b _ hb => hb
    | cons x rest ih =>
      intro b hl hb
      refine ih _ (fun i hi => hl i (List.mem_cons_of_mem _ hi)) fun i hi => ?_
      cases hx : pass x with
      | false => exact hb i (by simpa [hx] using hi)
      | true =>
        have hxj := hl x List.mem_cons_self hx
        cases b with
        | none => simp [hx] at hi; exact hi ▸ hxj
        | some b =>
          by_cases hlt : age b < age x
          · simp [hx, hlt] at hi; exact hi ▸ hxj
          · simp [hx, hlt] at hi; exact hb i (by rw [hi])
  have hpost : ∀ l : List (Fin 4), (∀ i ∈ l, pass i = true → age i ≤ age j) → l.foldl (fun best i =>
        if pass i && (match best with
          | some b => decide (age b < age i)
          | none => true)
        then some i else best) (some j) = some j := by
    intro l
    induction l with
    | nil => exact fun _ => rfl
    | cons x rest ih =>
      intro hl
      rw [List.foldl_cons, if_neg]
      · exact ih fun i hi => hl i (List.mem_cons_of_mem _ hi)
      · intro h
        simp only [Bool.and_eq_true, decide_eq_true_eq] at h
        have := hl x List.mem_cons_self h.1
        omega
  rw [List.foldl_append, List.foldl_cons, if_pos]
  · exact hpost post after
  · have := hpre pre none before (by simp)
    revert this
    generalize List.foldl _ _ pre = b
    intro hb
    cases b with
    | none => simp [hj]
    | some i => simp [hj, hb i rfl]

/-- The oldest slot is the one that lies furthest back, the lowest of two as far (R35; log entry 17). -/
theorem ScanAssembler.oldest_eq {a : ScanAssembler} {j : Fin 4} {k : Slot} (hk : a.slots[j] = some k)
    (ho : ∀ i m, a.slots[(i : Fin 4)] = some m → a.distance m < a.distance k ∨ a.distance m = a.distance k ∧ j ≤ i) :
    a.oldest (fun _ => true) = some j := by
  have hold : ∀ i, a.holds (fun _ => true) i = true → ∃ m, a.slots[i] = some m ∧ a.age i = a.distance m := by
    intro i h
    unfold ScanAssembler.holds at h
    unfold ScanAssembler.age
    cases hm : a.slots[i] with
    | none => rw [hm] at h; cases h
    | some m => exact ⟨m, rfl, rfl⟩
  have hj : a.holds (fun _ => true) j = true := by unfold ScanAssembler.holds; rw [hk]
  obtain ⟨k', hk', hage⟩ := hold j hj
  rw [hk] at hk'; cases hk'
  have before : ∀ i, i < j → a.holds (fun _ => true) i = true → a.age i < a.age j := by
    intro i hi h
    obtain ⟨m, hm, e⟩ := hold i h
    rw [e, hage]
    rcases ho i m hm with h | ⟨_, h⟩
    · exact h
    · omega
  have after : ∀ i, a.holds (fun _ => true) i = true → a.age i ≤ a.age j := by
    intro i h
    obtain ⟨m, hm, e⟩ := hold i h
    rw [e, hage]
    rcases ho i m hm with h | ⟨h, _⟩ <;> omega
  unfold ScanAssembler.oldest
  have cut : ∃ pre post, slotsInOrder = pre ++ j :: post ∧ ∀ i ∈ pre, i < j := by
    clear before after hage hj hold ho hk
    match j with
    | 0 => exact ⟨[], [1, 2, 3], rfl, by decide⟩
    | 1 => exact ⟨[0], [2, 3], rfl, by decide⟩
    | 2 => exact ⟨[0, 1], [3], rfl, by decide⟩
    | 3 => exact ⟨[0, 1, 2], [], rfl, by decide⟩
  obtain ⟨pre, post, e, hpre⟩ := cut
  rw [e]
  exact oldest_fold _ _ j pre post hj (fun i hi h => before i (hpre i hi) h) fun i _ h => after i h

/-- All that a try of the hand-over does (R45, R74). -/
theorem State.tryHandOver_handsOver (s : State) : s.HandsOver s.tryHandOver := by
  refine ⟨?_, ?_, ?_⟩
  · rintro ⟨j, k, hk, hp⟩
    exact State.tryHandOver_busy (j := j) (by unfold ScanAssembler.holds; rw [hk]; simp [hp])
  · intro h
    unfold State.tryHandOver
    split
    · rfl
    · split
      · rfl
      · rename_i i _
        rw [h i]
  · intro h j k hk ho
    rw [State.tryHandOver_oldest (fun i => by
      unfold ScanAssembler.holds
      cases hm : s.scan.slots[i] with
      | none => rfl
      | some m => simpa using h i m hm) (ScanAssembler.oldest_eq hk ho) hk]
    exact ⟨fun hp => if_neg hp, fun hp todo ht => by rw [if_pos hp, ht]; rfl⟩

/-- A slot that closes: it stands CLOSED, and the hand-over is tried (R41, R42, R45). -/
theorem State.closeSlot_handsOver (s : State) (i : Fin 4) (k : Slot) :
    State.HandsOver { s with scan := { s.scan with slots := setAt s.scan.slots i (some { k with phase := .closed }) } } (s.closeSlot i k) :=
  State.tryHandOver_handsOver _


/-- The head table after the misses of a closing slot (R44). -/
theorem missed_heads (c : Card) (k : Slot) (heads : Vector HeadEntry 8) (h : Fin 8) :
    (Vector.ofFn fun h => if k.misses c h then heads[h].missed else heads[h])[h] =
      if k.expected.contains h = true ∧ k.received h = false ∧ c.heads[h].enabled = true then
        { heads[h] with miss := min 255 (heads[h].miss + 1),
                        state := if 8 ≤ min 255 (heads[h].miss + 1) then .fault else heads[h].state }
      else heads[h] := by
  show (Vector.ofFn _)[h.val] = _
  rw [Vector.getElem_ofFn]
  simp only [Fin.eta]
  unfold Slot.misses
  by_cases hc : k.expected.contains h = true ∧ k.received h = false ∧ c.heads[h].enabled = true
  · rw [if_pos hc, if_pos (by simp only [hc.1, hc.2.1, hc.2.2]; rfl)]
    unfold HeadEntry.missed HeadEntry.enters bump
    generalize min 255 (heads[h].miss + 1) = n
    by_cases h8 : 8 ≤ n
    · simp [h8]
    · simp [h8]
  · rw [if_neg hc, if_neg]
    intro hh
    simp only [Bool.and_eq_true, Bool.not_eq_true'] at hh
    exact hc ⟨hh.1.1, hh.1.2, hh.2⟩

/-- HEAD_FAULT is raised where a missed head enters FAULT (R44). -/
theorem missed_raises (c : Card) (k : Slot) (heads : Vector HeadEntry 8) :
    (headsInOrder.any fun h => k.misses c h && heads[h].enters) = true ↔
      ∃ h, k.expected.contains h = true ∧ k.received h = false ∧ c.heads[(h : Fin 8)].enabled = true ∧ 7 ≤ heads[h].miss
        ∧ heads[h].state ≠ .fault := by
  rw [List.any_eq_true]
  constructor
  · rintro ⟨h, -, hh⟩
    simp only [Slot.misses, HeadEntry.enters, bump, Bool.and_eq_true, Bool.not_eq_true', bne_iff_ne] at hh
    exact ⟨h, hh.1.1.1, hh.1.1.2, hh.1.2,
      by have := of_decide_eq_true hh.2.1; have := Nat.le_trans this (Nat.min_le_right _ _); omega, hh.2.2⟩
  · rintro ⟨h, a, b, c, d, e⟩
    refine ⟨h, by clear a b c d e; revert h; decide, ?_⟩
    simp only [Slot.misses, HeadEntry.enters, bump, Bool.and_eq_true, Bool.not_eq_true', bne_iff_ne]
    exact ⟨⟨⟨a, b⟩, c⟩, decide_eq_true (Nat.le_min.2 ⟨by omega, by omega⟩), e⟩

/-- A slot that closes by its line wait or by a force-close: its missing heads are missed, it stands CLOSED, and the hand-over is tried
(R38, R42, R44, R45). -/
theorem State.closeMissing_handsOver (s : State) (i : Fin 4) (k : Slot) (heads : Vector HeadEntry 8)
    (hh : ∀ h, heads[(h : Fin 8)] =
      if k.expected.contains h = true ∧ k.received h = false ∧ s.store.card.heads[h].enabled = true then
        { s.scan.heads[h] with miss := min 255 (s.scan.heads[h].miss + 1),
                               state := if 8 ≤ min 255 (s.scan.heads[h].miss + 1) then .fault else s.scan.heads[h].state }
      else s.scan.heads[h]) :
    State.HandsOver { s with
      scan := { s.scan with slots := setAt s.scan.slots i (some { k with phase := .closed }), heads := heads },
      report := { s.report with flags := s.report.flags |||
        (if (∃ h, k.expected.contains h = true ∧ k.received h = false ∧ s.store.card.heads[(h : Fin 8)].enabled = true
            ∧ 7 ≤ s.scan.heads[h].miss ∧ s.scan.heads[h].state ≠ .fault) then 2#11 else 0#11) } } (s.closeMissing i k) := by
  have eh : heads = Vector.ofFn fun h => if k.misses s.store.card h then s.scan.heads[h].missed else s.scan.heads[h] :=
    Vector.ext fun n hn => (hh ⟨n, hn⟩).trans (missed_heads s.store.card k s.scan.heads ⟨n, hn⟩).symm
  have er : s.report.raiseIf (headsInOrder.any fun h => k.misses s.store.card h && s.scan.heads[h].enters) .headFault
      = { s.report with flags := s.report.flags |||
        (if (∃ h, k.expected.contains h = true ∧ k.received h = false ∧ s.store.card.heads[(h : Fin 8)].enabled = true
            ∧ 7 ≤ s.scan.heads[h].miss ∧ s.scan.heads[h].state ≠ .fault) then 2#11 else 0#11) } := by
    have hi := missed_raises s.store.card k s.scan.heads
    unfold ReportUnit.raiseIf
    by_cases hc : (headsInOrder.any fun h => k.misses s.store.card h && s.scan.heads[h].enters) = true
    · rw [if_pos hc, if_pos (hi.1 hc)]; rfl
    · rw [if_neg hc, if_neg fun h => hc (hi.2 h)]
      simp
  rw [← er, eh]
  exact State.closeSlot_handsOver (s.missHeads k) i k

end Sys2Proof.Machine
end

