-- ==== Sys2Proof/Laws/Zones.lean ====
section
/-! SUPPORT. What insertion and coarsening do to a closed-zone list: its length, its members, its order (R106, R108). -/

namespace Sys2Proof.Machine

set_option Elab.async false

/-- A closed-zone list is ordered by start (R106). -/
def ordered (zs : List ClosedZone) : Prop := zs.Pairwise fun a b => a.start ≤ b.start

@[simp] theorem insertZone_length (z : ClosedZone) (zs : List ClosedZone) : (insertZone z zs).length = zs.length + 1 := by
  induction zs with
  | nil => rfl
  | cons y ys ih => unfold insertZone; split <;> simp [ih]

theorem mem_insertZone {z x : ClosedZone} {zs : List ClosedZone} : x ∈ insertZone z zs ↔ x = z ∨ x ∈ zs := by
  induction zs with
  | nil => simp [insertZone]
  | cons y ys ih =>
      unfold insertZone
      split
      · simp only [List.mem_cons, ih]
        constructor
        · rintro (h | h | h) <;> simp [h]
        · rintro (h | h | h) <;> simp [h]
      · simp

theorem insertZone_ordered {z : ClosedZone} {zs : List ClosedZone} (h : ordered zs) : ordered (insertZone z zs) := by
  induction zs with
  | nil => simp [insertZone, ordered]
  | cons y ys ih =>
      obtain ⟨hy, hs⟩ := List.pairwise_cons.mp h
      unfold insertZone
      split
      · rename_i hle
        refine List.pairwise_cons.mpr ⟨?_, ih hs⟩
        intro x hx
        rcases mem_insertZone.mp hx with rfl | hm
        · exact hle
        · exact hy x hm
      · rename_i hgt
        refine List.pairwise_cons.mpr ⟨?_, h⟩
        intro x hx
        rcases List.mem_cons.mp hx with rfl | hm
        · omega
        · have := hy x hm; omega

theorem filter_ordered (p : ClosedZone → Bool) {zs : List ClosedZone} (h : ordered zs) : ordered (zs.filter p) :=
  List.Pairwise.sublist List.filter_sublist h

/-- A list of at least two entries has a smallest gap, and it is the gap of an adjacent pair. -/
theorem smallestGap_isSome (a b : ClosedZone) (zs : List ClosedZone) : ∃ g, smallestGap (a :: b :: zs) = some g := by
  unfold smallestGap
  split <;> exact ⟨_, rfl⟩

/-- Joining at the smallest gap takes one entry away (R108). -/
theorem joinAt_length {g : Int} {zs : List ClosedZone} (h : smallestGap zs = some g) : (joinAt g zs).length + 1 = zs.length := by
  induction zs with
  | nil => cases h
  | cons a rest ih =>
      cases rest with
      | nil => cases h
      | cons b more =>
          unfold joinAt
          split
          · simp
          · rename_i hne
            unfold smallestGap at h
            split at h
            · exact absurd (Option.some.inj h) hne
            · rename_i g' hg
              have : min (gapOf a b) g' = g := Option.some.inj h
              have hgg : g' = g := by omega
              simp only [List.length_cons]
              have := ih (hgg ▸ hg)
              simp only [List.length_cons] at this
              omega

/-- A coarsening takes one entry of a list of at least two away (R108). -/
theorem coarsen_length {zs : List ClosedZone} (h : 2 ≤ zs.length) : (coarsen zs).length + 1 = zs.length := by
  match zs, h with
  | a :: b :: rest, _ =>
      obtain ⟨g, hg⟩ := smallestGap_isSome a b rest
      unfold coarsen
      rw [hg]
      exact joinAt_length hg

/-- What every entry has, and a joined pair takes over, every entry of the joined list has. -/
theorem joinAt_all {p : ClosedZone → Prop} (hj : ∀ a b, p a → p b → p (joinZones a b)) (g : Int) {zs : List ClosedZone}
    (h : ∀ z ∈ zs, p z) : ∀ z ∈ joinAt g zs, p z := by
  induction zs with
  | nil => simp [joinAt]
  | cons a rest ih =>
      cases rest with
      | nil => simpa [joinAt] using h
      | cons b more =>
          unfold joinAt
          split
          · intro z hz
            rcases List.mem_cons.mp hz with rfl | hm
            · exact hj a b (h a (by simp)) (h b (by simp))
            · exact h z (by simp [hm])
          · intro z hz
            rcases List.mem_cons.mp hz with rfl | hm
            · exact h z (by simp)
            · exact ih (fun x hx => h x (by simp [List.mem_cons.mp hx])) z hm

theorem coarsen_all {p : ClosedZone → Prop} (hj : ∀ a b, p a → p b → p (joinZones a b)) {zs : List ClosedZone}
    (h : ∀ z ∈ zs, p z) : ∀ z ∈ coarsen zs, p z := by
  unfold coarsen
  split
  · exact h
  · exact joinAt_all hj _ h

theorem joinAt_ordered (g : Int) {zs : List ClosedZone} (h : ordered zs) : ordered (joinAt g zs) := by
  induction zs with
  | nil => simpa [joinAt] using h
  | cons a rest ih =>
      cases rest with
      | nil => simpa [joinAt] using h
      | cons b more =>
          obtain ⟨ha, hb⟩ := List.pairwise_cons.mp h
          obtain ⟨hb', hm⟩ := List.pairwise_cons.mp hb
          unfold joinAt
          split
          · refine List.pairwise_cons.mpr ⟨?_, hm⟩
            intro x hx
            have h1 := ha b (by simp)
            have h2 := hb' x hx
            show min a.start b.start ≤ x.start
            omega
          · refine List.pairwise_cons.mpr ⟨?_, ih hb⟩
            exact joinAt_all (p := fun x => a.start ≤ x.start)
              (fun x y hx hy => by show a.start ≤ min x.start y.start; omega) g (fun z hz => ha z hz)

theorem coarsen_ordered {zs : List ClosedZone} (h : ordered zs) : ordered (coarsen zs) := by
  unfold coarsen
  split
  · exact h
  · exact joinAt_ordered _ h

/-- A coarsening never lowers a severity and never shortens an extent (R108). -/
theorem joinZones_covers (a b : ClosedZone) :
    (joinZones a b).start ≤ a.start ∧ (joinZones a b).start ≤ b.start ∧ a.finish ≤ (joinZones a b).finish
      ∧ b.finish ≤ (joinZones a b).finish := by
  refine ⟨?_, ?_, ?_, ?_⟩ <;> simp only [joinZones] <;> omega

end Sys2Proof.Machine
end

