-- ==== Sys2Proof/Tests/Slice0.lean ====
section
/-! SUPPORT. Tests: the ill-formed commands that the check refuses, worked examples of spec/ step by step, and for each
statement that has hypotheses a witness that meets them. -/

namespace Sys2Proof.Tests

set_option Elab.async false

open Sys2Proof.Machine

/-! ### The check of commands -/

theorem test_wf_curve_of_16_points : Instr.wf (.setCurve 0 (List.replicate 16 0)) = false := by decide

theorem test_wf_curve_of_17_points : Instr.wf (.setCurve 0 (List.replicate 17 0)) = true := by decide

/-- A scan event with a temperature and trended values. -/
def scanOf (temperature : Nat) (vs : List (Fin 32)) : ScanEvent :=
  { strand := 0, x := 0, temperature := temperature, fallback := false, trended := vs.map fun f => { feature := f, w := none } }

theorem test_wf_scan_too_cold : Instr.wf (.scanEvent (scanOf 1999 [])) = false := by decide

theorem test_wf_scan_too_hot : Instr.wf (.scanEvent (scanOf 6096 [])) = false := by decide

theorem test_wf_scan_nine_trended : Instr.wf (.scanEvent (scanOf 2000 [0, 1, 2, 3, 4, 5, 6, 7, 8])) = false := by decide

theorem test_wf_scan_out_of_order : Instr.wf (.scanEvent (scanOf 2000 [1, 0])) = false := by decide

theorem test_wf_scan_twice : Instr.wf (.scanEvent (scanOf 2000 [1, 1])) = false := by decide

theorem test_wf_scan_eight_trended : Instr.wf (.scanEvent (scanOf 6095 [0, 1, 2, 3, 4, 5, 6, 31])) = true := by decide

theorem test_wf_open_without_excess :
    Instr.wf (.zoneOpenEvent { strand := 0, feature := 0, start := 0, finding := .dimension .low { excess := 0, w := 0 } }) = false := by
  decide

theorem test_wf_update_without_excess :
    Instr.wf (.zoneUpdateEvent { strand := 0, feature := 0, side := .low, worst := some { excess := 0, w := 0 } }) = false := by decide

/-! ### Numbers, check values, layouts -/

theorem test_round_ties_away : roundDiv 5 2 = 3 ∧ roundDiv (-5) 2 = -3 ∧ roundDiv (-4) 3 = -1 := by decide

theorem test_crc32_of_check_string : crc32 [0x31, 0x32, 0x33, 0x34, 0x35, 0x36, 0x37, 0x38, 0x39] = 0xCBF43926 := by decide +kernel

theorem test_digest_of_empty_card : digestOf Card.empty = 0x50D85AF6 := by decide +kernel

theorem test_no_word_spells_a_command : decodeTableWord 8 0 = none := rfl

/-- What a command answers, as a state. -/
def after (a : Answer) : State :=
  match a with
  | .next s => s
  | .fault _ => State.reset
  | .refused _ => State.reset

/-- Commands in a row. -/
def runAll (cs : List Instr) (s : State) : State := cs.foldl (fun s c => after (exec c s)) s

/-- The bands, scales and distances of the worked examples. -/
def workedLine : LineSection :=
  { LineSection.empty with dHead := 1500, dSaw := 9000, scanPitch := 5000, scaleA := 250, scaleB := 400, weldLead := 5000,
                           weldLength := 600, stopMargin := 300, stopSeverity := .major, mergeGap := 100, lineWait := 20 }

def workedThermal : ThermalSection :=
  { u0 := 4000, u1 := 4800, u2 := 5400, k0 := 2300, k1 := 2350, k2 := 2400, k3 := 2450, hysteresis := 100, defaultTemp := 5000,
    hold := 300 }

def limits6 : Limits := { nominal := 3000, lower := -50, upper := 50, kOpen := 3, kClose := 2, severity := .major }

def head (strand position : Fin 4) : HeadRecord := { HeadRecord.empty with enabled := true, strand := strand, position := position }

def gap6 : Feature :=
  { featureId := 6, kind := .gap, placeA := { position := 0, window := { first := 430, last := 440 } },
    placeB := some { position := 1, window := { first := 430, last := 440 } }, minPoints := 3, trended := false, limits := limits6 }

def workedCard : Card :=
  { Card.empty with
    strands := 2, thermal := workedThermal, line := workedLine,
    heads := setAt (setAt (setAt (setAt Card.empty.heads 0 (head 1 0)) 1 (head 1 1)) 2 (head 0 1)) 3 (head 0 0),
    features := setAt Card.empty.features 6 (some gap6) }

/-- The part after reset with a card. -/
def onCard (c : Card) : State := State.reset.withStore { State.reset.store with card := c }

/-- A strand with a last cut. -/
def strandAt (state : StrandState) (lastCut : Int) : Strand := { Strand.fresh state 1 with lastCut := lastCut }

/-- The worked card with the press in a state and strand 0 as given. -/
def pressed (p : Press) (st : Strand) : State :=
  (onCard workedCard).withTracker { State.reset.tracker with press := p, strands := setAt State.reset.tracker.strands 0 st }

theorem test_readiness_of_worked_card : readiness workedCard = 0 ∧ readiness Card.empty = 1 := by decide +kernel

theorem test_readiness_check_4 : readiness { workedCard with heads := setAt workedCard.heads 0 (head 1 2) } = 4 := by decide +kernel

/-! ### Worked examples -/

theorem test_backing_and_handover :
    (runAll [.reverseCount .a, .reverseCount .a, .reverseCount .a, .forwardCount .b, .forwardCount .a, .forwardCount .a,
      .forwardCount .a, .forwardCount .a, .reverseCount .a, .pullerSelectChange, .reverseCount .b, .forwardCount .b, .forwardCount .b]
      ((onCard workedCard).withRunout { State.reset.runout with travel := 1000000 })).runout
      = { State.reset.runout with travel := 1000650, active := .b, deficitA := 250 } := by decide +kernel

theorem test_one_travel_three_places :
    dieCoordinate 12345678 = 12345 ∧ headCoordinate workedLine 12345678 = 10845 ∧ sawCoordinate workedLine 12345678 = 3345 := by
  decide

theorem test_coarse_encoder_fires_twice_and_more :
    let s := after (exec (.forwardCount .a)
      (((onCard { workedCard with line := { workedLine with scaleA := 5000 } }).withTracker
        { State.reset.tracker with press := .running }).withRunout
          { State.reset.runout with travel := 101500, remainder := 1500, pitch := 2000 }))
    s.runout.travel = 106500 ∧ s.runout.remainder = 500 ∧ s.scan.slots.toList.map (fun k => k.map Slot.x) =
      [some (-1398), some (-1396), some (-1394), none] := by decide +kernel

theorem test_bands_with_hysteresis :
    [(2, 5420), (3, 5350), (3, 5290), (2, 4750), (2, 4690), (1, 4800), (2, 3900), (1, 3900), (1, 3880)].map
      (fun p => reviseBand workedThermal p.1 p.2) = [3, 3, 2, 2, 1, 2, 1, 1, 0] := by decide

theorem test_hold_and_fallback :
    let s := runAll [.pyroSample 1 3140, .pyroSample 1 0, .holdTimerExpiry 1, .pyroSample 1 0] (onCard workedCard)
    s.thermal[(1 : Fin 4)] = { temperature := 5000, band := 2, fallback := true, timer := none } ∧ s.now = 300
      ∧ s.report.has .thermalFallback = true := by decide +kernel

/-- A persistence record after results of feature 6. -/
def persisted (rs : List (Int × FeatureResult)) : Persistence :=
  rs.foldl (fun p r => (Persistence.result 1 6 limits6 0 r.1 r.2 p).1) Persistence.clear

theorem test_persistence_opens_backdated :
    (persisted [(1000, .found .inside 3000 3000), (1005, .found .low 2940 2940), (1010, .found .low 2930 2930), (1015, .missing),
      (1020, .found .low 2945 2945)]).zone = some { start := 1005, worst := { excess := 20, w := 2930 } } := by decide

theorem test_persistence_closes_at_first_in :
    (Persistence.result 1 6 limits6 0 1040 (.found .inside 3000 3000)
      { Persistence.clear with zone := some { start := 1005, worst := { excess := 20, w := 2930 } },
                               inRun := some { count := 1, start := 1035 } }) =
      (Persistence.clear, [.close { strand := 1, feature := 6, kind := .dimension, finish := 1035 }]) := by decide

/-- A closed DIMENSION zone of a feature. -/
def dimensionZone (number : Nat) (f : Fin 32) (start finish : Int) (sides : Sides) (excess : Int) : ClosedZone :=
  { number := number, cls := .dimension, feature := some f, severity := .minor, start := start, finish := finish, sides := some sides,
    worst := some { excess := excess, w := 0 }, billet := none, sources := ZoneClass.dimension.alone }

theorem test_merge_of_two_zones :
    ((strandAt .running 0).mergeZone 100 (dimensionZone 3 6 1005 1035 .low 20)).strand.mergeZone 100 (dimensionZone 5 6 1100 1160 .high 30)
      = { strand := { strandAt .running 0 with
            closed := [{ dimensionZone 3 6 1005 1160 .both 30 with worst := some { excess := 30, w := 0 } }] },
          late := false, coarsened := false } := by decide

theorem test_coarsening_joins_the_smallest_gap :
    coarsen [dimensionZone 41 3 20000 20040 .low 9,
             { dimensionZone 42 3 20030 20060 .low 0 with cls := .blind, sides := none, worst := none, sources := ZoneClass.blind.alone },
             dimensionZone 44 5 20070 20090 .low 5]
      = [{ dimensionZone 41 3 20000 20060 .low 9 with
             cls := .merged, feature := none, sides := none,
             sources := { dimension := true, blind := true, weld := false, stop := false } },
         dimensionZone 44 5 20070 20090 .low 5] := by decide

theorem test_weld_and_stop_zones :
    let s := runAll [.billetJoin] ((pressed .running { strandAt .running 30200 with billet := 3 }).withRunout
      { State.reset.runout with travel := 31456789 })
    let t := runAll [.stop, .stop] ((s.withRunout { s.runout with travel := 40210400 }).withLink State.reset.link)
    t.tracker.press = .stopped ∧ t.tracker.strands[(0 : Fin 4)].billet = 4
      ∧ t.tracker.strands[(0 : Fin 4)].closed.map (fun z => (z.start, z.finish, z.severity, z.billet))
          = [(36456, 37056, .cutout, some 4), (39910, 40511, .major, none)] := by decide +kernel

theorem test_lost_cut_edges :
    let s := runAll [.cutEdge 100, .cutEdge 99, .cutEdge 500, .cutEdge 100, .cutEdge 100, .cutEdge 100, .lostCutReport]
      (pressed .running (strandAt .running 3000))
    s.runout.cuts.length = 4 ∧ s.report.counters.lostCut = 1 ∧ s.tracker.strands[(0 : Fin 4)].cutLost = true
      ∧ s.tracker.strands[(1 : Fin 4)].cutLost = false := by decide +kernel

theorem test_cut_forms_a_length :
    let s := after (exec .takeCut ((pressed .running (strandAt .running 3000)).withRunout
      { State.reset.runout with travel := 14000000, cuts := [14000000] }))
    s.report.queue.map (fun r => (r.lower, r.upper, r.verdict)) = [(3000, 5000, .accept)]
      ∧ s.verdict.last[(0 : Fin 4)] = some .accept ∧ s.rejectLine 0 = false ∧ s.tracker.strands[(0 : Fin 4)].lastCut = 5000 := by
  decide +kernel

theorem test_address_and_frame_of_status :
    addressOf { addr0 := true, addr1 := false, rate := true } = 2
      ∧ frameOf 2 1 [] = [0xA5, 2, 1, 0, 0] ++ bytes16 (crc16 [2, 1, 0, 0]) := by decide +kernel

theorem test_overrun_and_expiry :
    let s := runAll [.setWatchdog 500, .replySent, .linkFrame (frameOf 1 12 [5]), .linkFrame (frameOf 1 1 []), .bankLoad 5, .replySent,
      .watchdogExpiry] State.reset
    s.report.counters.overrun = 1 ∧ s.report.has .linkError = true ∧ s.now = 500 ∧ s.link.deadline = none
      ∧ s.verdict.failsafe = .failsafe := by decide +kernel

theorem test_store_lock_and_refusals :
    let s := runAll [.bankStore 2, .replySent, .setIdentity 1 1 0 1, .replySent, .bankLock 2 1, .replySent, .bankStoreEnd .copy,
      .bankLock 2 1, .replySent, .bankStore 2] State.reset
    s.store.banks[(2 : Fin 8)].valid = true ∧ s.store.banks[(2 : Fin 8)].lock = .held ∧ s.store.banks[(2 : Fin 8)].revision = 0
      ∧ s.store.lastOutcome = .done 2 ∧ s.report.has .protectedAccess = true := by decide +kernel

/-- The length record of a hot length and a verdict. -/
def record (verdict : Verdict) (hot : Int) : LengthRecord :=
  { lengthRecord workedCard 0 (ThermalRecord.fresh workedThermal 0) .normal .cut 0 (strandAt .running 0) hot with verdict := verdict }

theorem test_full_queue_goes_to_the_tally :
    let full : ReportUnit := { State.reset.report with queue := List.replicate 63 (record .accept 1), nextSequence := 163 }
    let u := (full.take (record .accept 6000)).take (record .reject 7412)
    u.queue.length = 64 ∧ u.nextSequence = 164 ∧ u.tally = { lengths := 1, rejects := 1, millis := 7412 }
      ∧ u.has .queueOverflow = true := by decide +kernel

theorem test_head_check_of_three_heads :
    let c := { workedCard with heads := Vector.replicate 8 { head 0 0 with dark := 40, bright := 230, minPoints := 200 } }
    let line := fun h peak valid => State.takeLine
      { head := h, trigger := 65535, peak := peak, codes := List.replicate valid 9 ++ List.replicate (512 - valid) 0 }
    let s := line 5 100 512 (line 2 180 150 (line 2 180 150 (line 3 31 410 (after (exec (.headCheck 0x4C 1) (onCard c))))))
    s.scan.heads.toList.map HeadEntry.check = [.none, .none, .sparse, .dark, .none, .none, .pending, .none]
      ∧ s.scan.check.isSome = true ∧ s.report.counters.lateLine = 1 ∧ s.report.counters.duplicate = 1 := by decide +kernel

/-! ### Witnesses: states and operands that meet the hypotheses of the statements -/

/-- A part whose link port has no request in service lets every command be served. -/
theorem serves_free (s : State) (c : Instr) (hp : s.powered = true) (hs : s.link.service = none) : s.serves c :=
  ⟨hp, by simp [LinkPort.admits, hs]⟩

/-- The part after reset with one request waiting. -/
def waiting : State := { State.reset with pending := [.stop] }

/-- A slot with some lines, expecting head 0. -/
def slotIn (phase : Phase) (manual : Bool) (lines : List Line) : Slot :=
  { phase := phase, number := 7, x := 0, manual := manual, capture := Vector.ofFn fun i => State.reset.thermal[i].capture,
    expected := [0, 1], lines := lines, deadline := 20, skips := none }

/-- The worked card running, with slots 0 to 3 as given. -/
def slotted (a b c d : Option Slot) : State :=
  let s := pressed .running (strandAt .running 0)
  s.withScan { s.scan with slots := #v[a, b, c, d] }

/-- A state with its remainder one scale below the pitch in force. -/
def nearPitch (s : State) : State := s.withRunout { s.runout with remainder := 750, pitch := 1000 }

/-- A request of a kind in service, passed on. -/
def serving (c : Instr) (s : State) : State :=
  s.withLink { s.link with service := some { kind := kindByteOf c, request := some c } }

/-- A bank with a card's canonical content. -/
def cardBank (c : Card) : Bank := { Bank.neverStored with content := .card c, valid := true, digest := digestOf c }

/-- A part with bank 2 as given, also its boot bank. -/
def banked (b : Bank) : State :=
  State.reset.withStore { State.reset.store with banks := setAt State.reset.store.banks 2 b, boot := some 2 }

/-- A part that stores its card into bank 3. -/
def storingIn3 : State := after (exec (.bankStore 3) State.reset) |>.withLink State.reset.link

theorem witness_StepRunsFrontCommand : State.reset.pending = [] := rfl

theorem witness_UnpoweredPartStandsStill :
    ({ State.reset with powered := false } : State).powered = false ∧ ∀ straps high, Instr.stop ≠ .powerOn straps high :=
  ⟨rfl, nofun⟩

/-- For StepKeepsCardsInRange, StepKeepsTravelUnit, StepKeepsPressAndStrands, StepKeepsBanks and StepKeepsDigests. -/
theorem witness_StepKeeps :
    step waiting = .next (after (step waiting)) ∧ waiting.CardsSound ∧ waiting.TravelSound ∧ waiting.PressSound
      ∧ waiting.BanksSound ∧ waiting.DigestsSound := by
  refine ⟨rfl, ⟨by decide +kernel, fun f l h => ?_, fun b c h => ?_, trivial⟩,
    ⟨by decide, by decide, by decide, by decide, nofun, by decide, nofun, by decide, fun h => absurd rfl h⟩,
    ⟨⟨fun _ => by decide, fun _ => rfl⟩, fun _ => by decide +revert⟩, ⟨trivial, nofun, fun b h => ?_⟩, ⟨rfl, trivial, fun b h => ?_⟩⟩
  · revert h; simp [waiting, State.reset]
  · revert h; simp [waiting, State.reset, Bank.neverStored]
  · revert h; simp [waiting, State.reset, Bank.neverStored]
  · revert h; simp [waiting, State.reset, Bank.neverStored]

theorem witness_StepKeepsDigests : ∀ c, waiting.pending.head? = some c → noForeignStore c := by
  intro c h; cases h; trivial

/-- For StepKeepsTrack, StepKeepsHeadAndSlotTables, StepKeepsThermalRecords and StepKeepsReportsCountersAndWatchdog. -/
theorem witness_StepKeepsTables :
    waiting.TrackSound ∧ waiting.HeadsSound ∧ waiting.SlotsSound ∧ waiting.ThermalSound ∧ waiting.ReportsSound ∧ waiting.CountsSound
      ∧ waiting.WatchdogSound := by
  refine ⟨fun i => ⟨⟨?_, ?_, ?_⟩, ?_, ?_⟩, fun h => ?_, ⟨fun i k h => ?_, nofun, by decide⟩, fun i => ?_,
    ⟨by decide, by decide, fun i r h => ?_⟩, ⟨by simp [Counters.sound]; decide, by decide, by decide, by decide⟩, by decide, fun _ => rfl, nofun⟩
  all_goals first
    | (revert h; simp [waiting, State.reset]; done)
    | (simp [waiting, State.reset, Strand.fresh]; done)
    | (simp [waiting, State.reset, HeadEntry.sound, Card.empty, HeadRecord.empty])

theorem witness_RequestFrameEntersService :
    State.reset.powered = true ∧ State.reset.link.receiver = .hunt ∧ State.reset.link.driver = false ∧ State.reset.link.service = none
      ∧ Instr.wf (.setCurve 7 (List.replicate 17 500000)) = true ∧ kindOf (.setCurve 7 (List.replicate 17 500000)) = some 4 := by
  decide +kernel

theorem witness_DiscardedFramesAreCounted :
    (State.reset.link.receiver = .hunt)
      ∧ ([2].head? ≠ some (addressOf State.reset.link.straps)) ∧ ([1].head? = some (addressOf State.reset.link.straps))
      ∧ (List.replicate 1024 (0 : Byte)).length ≤ 1024
      ∧ (∃ v, (serving .status State.reset).link.service = some v)
      ∧ 2 ≠ addressOf State.reset.link.straps ∧ 0 ≠ crc16 (addressOf State.reset.link.straps :: 1 :: le16 0)
      ∧ 1024 < (1025 : Word16).toNat := by
  refine ⟨rfl, by decide, by decide, by decide +kernel, ⟨_, rfl⟩, by decide, by decide +kernel, by decide⟩

theorem witness_LinkPortExaminesRequests :
    lengthOf (37 : Byte).toNat = none ∧ lengthOf (255 : Byte).toNat = none
      ∧ ∃ n, lengthOf (4 : Byte).toNat = some n ∧ (List.replicate 68 (0 : Byte)).length ≠ n := by
  refine ⟨by decide, by decide, 69, by decide, by decide⟩

theorem witness_ReplySentEndsServiceAndRestarts :
    State.reset.link.reply = none
      ∧ (∃ r, (after (exec .status State.reset)).link.reply = some r ∧ ¬ (r.kind = 0xA4 ∧ r.body.status = .ok))
      ∧ ∃ r, (after (exec .restart State.reset)).link.reply = some r ∧ r.kind = 0xA4 ∧ r.body.status = .ok := by
  refine ⟨rfl, ⟨_, rfl, by decide⟩, ⟨_, rfl, by decide⟩⟩

theorem witness_LineFramesAreChecked :
    (∃ l : HeadLine, l.head = 255 ∧ l.trigger = 65535 ∧ l.peak = 255 ∧ l.codes = List.replicate 512 65535 ∧ l.codes.length = 512)
      ∧ ([] : List Byte).length ≠ 1030
      ∧ crc16 ((List.replicate 1030 (0 : Byte)).take 1028) ≠ word16At (List.replicate 1030 0) 1028 := by
  refine ⟨⟨⟨255, 65535, 255, List.replicate 512 65535⟩, rfl, rfl, rfl, rfl, List.length_replicate⟩, by decide, by decide +kernel⟩

theorem witness_PowerOnTakesBootBank :
    State.reset.store.boot = none
      ∧ ((banked Bank.neverStored).store.boot = some 2 ∧ (banked Bank.neverStored).store.banks[(2 : Fin 8)].valid = false)
      ∧ ((banked { Bank.neverStored with valid := true, digest := 1 }).store.banks[(2 : Fin 8)].valid = true
          ∧ (banked { Bank.neverStored with valid := true, digest := 1 }).store.banks[(2 : Fin 8)].intact = false)
      ∧ (banked (cardBank Card.empty)).store.banks[(2 : Fin 8)].valid = true
      ∧ (banked (cardBank Card.empty)).store.banks[(2 : Fin 8)].intact = true
      ∧ (banked (cardBank Card.empty)).store.banks[(2 : Fin 8)].content = .card Card.empty := by
  refine ⟨rfl, ⟨rfl, by decide +kernel⟩, ⟨by decide +kernel, by decide +kernel⟩, by decide +kernel, by decide +kernel, by decide +kernel⟩

theorem witness_SupplyFailureLosesStore :
    (serving (.setBoot 7) State.reset).link.reply = none ∧ bootOf 7 = some (some 7) ∧ bootOf 0xFF = some none
      ∧ indexOf 8 7 = some 7 ∧ (serving (.bankLock 7 2) State.reset).store.isStoring 7 = false
      ∧ (serving (.bankStore 7) State.reset).store.banks[(7 : Fin 8)].lock = .unlocked
      ∧ (serving (.bankStore 7) State.reset).store.engine = .idle
      ∧ (∃ v, (serving (.bankStore 7) State.reset).link.service = some v ∧ v.request = some (.bankStore 7)) := by
  refine ⟨rfl, by decide, by decide, by decide, rfl, by decide +kernel, rfl, ⟨_, rfl, rfl⟩⟩

theorem witness_ForwardCountPaysDeficitThenDraws :
    State.reset.runout.active ≠ .b
      ∧ (scaleOf State.reset.store.card.line .a ≤ (State.reset.runout.withDeficit .a 1).deficit .a)
      ∧ (State.reset.runout.active = .a ∧ State.reset.runout.deficit .a < scaleOf State.reset.store.card.line .a)
      ∧ State.reset.tracker.press = .idle
      ∧ ((pressed .running (strandAt .running 0)).tracker.press ≠ .idle
          ∧ (pressed .running (strandAt .running 0)).runout.mode = .distance
          ∧ (pressed .running (strandAt .running 0)).runout.remainder + 250
              < (pressed .running (strandAt .running 0)).runout.pitch) := by
  decide +kernel

/-- The hypotheses that a forward count reaches the pitch once. -/
def reachesPitch (s : State) : Prop :=
  s.powered = true ∧ s.runout.active = .a ∧ s.runout.deficit .a = 0 ∧ 0 < scaleOf s.store.card.line .a ∧ 0 < s.runout.pitch
    ∧ s.tracker.press ≠ .idle ∧ s.runout.mode = .distance
    ∧ s.runout.pitch ≤ s.runout.remainder + (min 1099511627775 (s.runout.travel + scaleOf s.store.card.line .a) - s.runout.travel)
    ∧ s.runout.remainder + (min 1099511627775 (s.runout.travel + scaleOf s.store.card.line .a) - s.runout.travel) - s.runout.pitch
        < s.runout.nextPitch.getD s.runout.pitch

theorem witness_DistanceTriggerTakesLowestFreeSlot :
    let k := some (slotIn .waiting false [])
    reachesPitch (nearPitch (slotted k k k none)) ∧ (nearPitch (slotted k k k none)).scan.slots[(3 : Fin 4)] = none
      ∧ (∀ j, j < 3 → (nearPitch (slotted k k k none)).scan.slots[(j : Fin 4)].isSome = true)
      ∧ (nearPitch (slotted k k k none)).store.card.heads[(0 : Fin 8)].enabled = true := by
  unfold reachesPitch; decide +kernel

theorem witness_TriggerWithoutFreeSlotIsSkipped :
    let k := some (slotIn .waiting false [])
    let s := nearPitch (slotted k k k (some (slotIn .closed false [])))
    reachesPitch s ∧ (∀ i, s.scan.slots[(i : Fin 4)].isSome = true) ∧ s.scan.oldest (fun k => k.phase == .waiting) = some 0
      ∧ s.scan.oldest (fun k => k.phase == .waiting) ≠ some 2 ∧ s.scan.slots[(2 : Fin 4)] = some (slotIn .waiting false []) := by
  unfold reachesPitch; decide +kernel

theorem witness_ReverseCountsAndPullerSelectSetDeficits :
    State.reset.runout.active = .a ∧ (after (exec .pullerSelectChange State.reset)).runout.active = .b := by decide +kernel

theorem witness_CutEdgeLatchesOrIsLost :
    ({ State.reset.runout with cuts := [1, 2, 3] } : TravelUnit).cuts.length < 4
      ∧ 4 ≤ ({ State.reset.runout with cuts := [1, 2, 3, 4] } : TravelUnit).cuts.length := by decide

theorem witness_LostCutReportMarksActiveStrands :
    let s := (State.reset.withRunout { State.reset.runout with cuts := [0] }).withTracker { State.reset.tracker with reportsDue := 1 }
    s.powered = true ∧ s.runout.cuts ≠ [] ∧ 0 < s.tracker.reportsDue := by decide +kernel

theorem witness_TakeCutFormsLengths :
    let cutting := fun st => (pressed .running st).withRunout { State.reset.runout with travel := 14000000, cuts := [14000000] }
    (5000 : Int) = ((14000000 / 1000 : Nat) : Int) - (workedLine.dSaw : Int)
      ∧ (cutting (strandAt .running 5000)).tracker.strands[(0 : Fin 4)].takesCut 5000 = false
      ∧ (cutting (strandAt .running 4999)).tracker.strands[(0 : Fin 4)].state = .running
      ∧ (strandAt .running 4999).lastCut < 5000 ∧ (cutting (strandAt .running 4999)).tracker.reportsDue = 0
      ∧ (cutting { strandAt .tailing 4999 with tail := some 5001 }).tracker.strands[(0 : Fin 4)].tail = some 5001
      ∧ (cutting { strandAt .tailing 4999 with tail := some 5000 }).tracker.strands[(0 : Fin 4)].tail = some 5000
      ∧ (cutting { strandAt .tailing 4999 with tail := some 4999 }).tracker.strands[(0 : Fin 4)].active = true
      ∧ (after (exec .takeCut (cutting { strandAt .tailing 4999 with tail := some 5000 }))).tracker.strands[(0 : Fin 4)].active = false
      ∧ (cutting (strandAt .running 4999)).tracker.strands[(0 : Fin 4)].formsLength 5000 = true := by
  decide +kernel

theorem witness_SetTriggerSetsModeAlone : State.reset.serves (.setTrigger 0) ∧ 2 ≤ (2 : Byte).toNat :=
  ⟨serves_free _ _ rfl rfl, by decide⟩

theorem witness_TriggerOnceFirstCaseThatApplies :
    let k := some (slotIn .closed true [])
    let s := onCard workedCard
    s.serves .triggerOnce
      ∧ (pressed .ending (strandAt .tailing 0)).tracker.press = .ending
      ∧ (s.tracker.press = .idle ∧ (after (exec (.headCheck 1 3) s)).scan.check.isSome = true)
      ∧ (∀ i, (slotted k k k k).scan.slots[(i : Fin 4)].isSome = true)
      ∧ (s.scan.check = none ∧ s.scan.slots[(0 : Fin 4)] = none ∧ s.store.card.heads[(0 : Fin 8)].enabled = true)
      ∧ ∀ h, State.reset.store.card.heads[(h : Fin 8)].enabled = false := by
  refine ⟨serves_free _ _ rfl rfl, ?_⟩; decide +kernel

/-- A line of 512 equal codes. -/
def flatLine (h : Fin 8) : Line := { head := h, peak := 100, codes := List.replicate 512 1000 }

theorem witness_TriggerLineFirstCaseThatApplies :
    let s := slotted (some (slotIn .waiting false [flatLine 1])) none none none
    (∃ bs, lineOfFrame bs = some { head := 7, trigger := 7, peak := 100, codes := (flatLine 7).codes })
      ∧ s.store.card.heads[(7 : Fin 8)].enabled = false ∧ s.scan.openWith 8 = none
      ∧ (s.scan.openWith 7 = some 0 ∧ (slotIn .waiting false []).expected.contains 2 = false)
      ∧ (s.store.card.heads[(1 : Fin 8)].enabled = true ∧ (slotIn .waiting false [flatLine 1]).received 1 = true)
      ∧ (s.store.card.heads[(0 : Fin 8)].enabled = true ∧ (slotIn .waiting false [flatLine 1]).received 0 = false) := by
  refine ⟨⟨frameOfLine { head := 7, trigger := 7, peak := 100, codes := (flatLine 7).codes }, by decide +kernel⟩, ?_⟩
  decide +kernel

/-- A check of heads 0 and 7 in flight, the worked card. -/
def checking : State := after (exec (.headCheck 0x81 0) (onCard workedCard))

theorem witness_CheckLineGivesTheHeadsResult :
    (∃ bs, lineOfFrame bs = some { head := 7, trigger := 65535, peak := 100, codes := (flatLine 7).codes })
      ∧ State.reset.scan.check = none ∧ checking.scan.check.map (fun c => c.mask.getLsbD 1) = some false
      ∧ checking.scan.check.map (fun c => c.mask.getLsbD 7) = some true ∧ checking.scan.heads[(7 : Fin 8)].check = .pending
      ∧ checking.scan.heads[(0 : Fin 8)].check = .pending
      ∧ (State.takeLine { head := 0, trigger := 65535, peak := 0, codes := [] } checking).scan.heads[(0 : Fin 8)].check ≠ .pending := by
  refine ⟨⟨frameOfLine { head := 7, trigger := 65535, peak := 100, codes := (flatLine 7).codes }, by decide +kernel⟩, ?_⟩
  decide +kernel

theorem witness_LineWaitExpiryClosesSlot :
    (∀ k, State.reset.scan.slots[(3 : Fin 4)] = some k → k.phase ≠ .waiting)
      ∧ (slotted none none none (some (slotIn .waiting false []))).scan.slots[(3 : Fin 4)] = some (slotIn .waiting false []) := by
  refine ⟨fun k h => ?_, by decide +kernel⟩
  revert h; simp [State.reset]

theorem witness_HeadCheckBeginsAndRunsOut :
    (∀ c, (onCard workedCard).serves c) ∧ 3 < (4 : Byte).toNat ∧ (pressed .stopped (strandAt .running 0)).tracker.press ≠ .idle
      ∧ checking.scan.check.isSome = true ∧ checking.tracker.press = .idle ∧ (onCard workedCard).scan.check = none := by
  refine ⟨fun c => serves_free _ c rfl rfl, ?_⟩; decide +kernel

theorem witness_ReadoutsAnswerAndChangeNothing :
    (∀ c, State.reset.serves c) ∧ cardFields State.reset.store 7 0 = none ∧ cardFields State.reset.store 3 32 = none
      ∧ (cardFields State.reset.store 3 31).isSome = true ∧ (cardFields State.reset.store 6 255).isSome = true
      ∧ 48 ≤ (48 : Byte).toNat ∧ (3 : Byte).toNat = (3 : Fin 4).val ∧ (47 : Byte).toNat ≤ 47 := by
  refine ⟨fun c => serves_free _ c rfl rfl, ?_⟩; decide +kernel

/-- A manual slot just handed over on the worked card. -/
def evaluating (manual : Bool) : State :=
  (slotted (some (slotIn .closed manual [flatLine 0])) (some (slotIn .closed true [])) none none).tryHandOver

theorem witness_EvaluationWritesResultsAndFreesSlot :
    (evaluating true).engine.evaluation.map (fun v => (v.slot, v.todo, v.track)) = some (0, [0, 1], false)
      ∧ (evaluating false).engine.evaluation.map (fun v => (v.slot, v.todo, v.track)) = some (0, [0], true)
      ∧ (evaluating false).scan.slots[(0 : Fin 4)] = some (slotIn .evaluating false [flatLine 0]) := by decide +kernel

/-- For the second part of EvaluationWritesResultsAndFreesSlot. -/
theorem witness_EvaluationEnds :
    let s := runAll [.strandEvaluation 0] (evaluating false)
    let freed := { s.scan with slots := setAt s.scan.slots 0 none }
    s.engine.evaluation.map Evaluation.todo = some [] ∧ (∀ i, freed.holds (fun k => k.phase == .evaluating) i = false)
      ∧ freed.oldest (fun _ => true) = some 1 ∧ freed.slots[(1 : Fin 4)] = some (slotIn .closed true [])
      ∧ ({ freed with slots := setAt freed.slots 1 none } : ScanAssembler).oldest (fun _ => true) = none := by decide +kernel

theorem witness_OutRunsOpenAndInRunsCloseZones :
    let p : Persistence := { Persistence.clear with zone := some { start := 5, worst := { excess := 1, w := 0 } } }
    1 ≤ 15 ∧ p.zone = some { start := 5, worst := { excess := 1, w := 0 } } ∧ p.inRun = none := by decide

/-- An event of a coordinate on strand 0. -/
def scanAt (x : Int) : ScanEvent := { strand := 0, x := x, temperature := 5000, fallback := true, trended := [] }

/-- An open event on strand 0, feature 6. -/
def openAt (start : Int) (finding : Finding) : ZoneOpen := { strand := 0, feature := 6, start := start, finding := finding }

theorem witness_ScanEventEntersTheLength :
    State.reset.offers (.scan (scanAt 0)) ∧ (strandAt .ended 0).active = false
      ∧ ((strandAt .running 100).active = true ∧ (scanAt 99).x < (strandAt .running 100).lastCut)
      ∧ (({ strandAt .tailing 0 with tail := some 100 } : Strand).active = true ∧ (100 : Int) ≤ (scanAt 100).x)
      ∧ ((strandAt .nose 0).active = true ∧ (strandAt .nose 0).lastCut ≤ (scanAt 0).x) := by
  refine ⟨.inl rfl, ?_⟩; decide

theorem witness_ZoneOpenAndUpdateEvents :
    let st : Strand := { strandAt .running 100 with
      dimensions := setAt (Vector.replicate 32 none) 6 (some { number := 1, start := 100, sides := .low, worst := ⟨1, 0⟩ }),
      blinds := setAt (Vector.replicate 32 none) 6 (some { number := 2, start := 100 }) }
    State.reset.offers (.start (openAt 0 .blind)) ∧ State.reset.offers (.update ⟨0, 6, .high, some ⟨1, 0⟩⟩)
      ∧ (strandAt .idle 0).active = false ∧ (openAt 100 .blind).start = 100 ∧ st.active = true
      ∧ (st.dimensions[(6 : Fin 32)]).isSome = true ∧ (st.blinds[(6 : Fin 32)]).isSome = true
      ∧ st.dimensions[(31 : Fin 32)] = none ∧ st.blinds[(31 : Fin 32)] = none ∧ (openAt 99 .blind).start < st.lastCut := by
  refine ⟨.inl rfl, .inl rfl, ?_⟩; decide

theorem witness_ZoneCloseEventClosesTheZone :
    let z := dimensionZone 1 6 100 101 .low 1
    let far := fun (n : Nat) => dimensionZone n 5 (1000 * n) (1000 * n + 1) .low 1
    State.reset.offers (.close ⟨0, 6, .dimension, 101⟩) ∧ workedCard.features[(6 : Fin 32)] = some gap6
      ∧ z.start < z.finish ∧ ¬ z.start < (dimensionZone 1 6 100 100 .low 1).finish
      ∧ [dimensionZone 2 6 201 300 .low 1].filter (mergesWith 100 z) = [dimensionZone 2 6 201 300 .low 1]
      ∧ [dimensionZone 2 6 202 300 .low 1].filter (mergesWith 100 z) = []
      ∧ (List.replicate 47 (far 1)).length < 48 ∧ ((List.replicate 48 (far 1)).filter (mergesWith 100 z) = []) := by
  refine ⟨.inl rfl, ?_⟩; decide +kernel

theorem witness_VerdictIsTheFirstCaseThatApplies :
    let line : LineSection := { workedLine with noseCrop := 1500, tailCrop := 2000, minLength := 3000 }
    (1500 : Int) ≤ (strandAt .running 0).nose + line.noseCrop ∧ (strandAt .running 0).nose + line.noseCrop < 1501
      ∧ (9000 : Int) - line.tailCrop ≤ 7000 ∧ ¬ (9000 : Int) - line.tailCrop ≤ 6999 ∧ (9000 : Int) - line.tailCrop < 7001
      ∧ (4499 : Int) - 1500 < line.minLength ∧ (line.minLength : Int) ≤ 4500 - 1500 := by decide

theorem witness_SamplesHoldAndFallback :
    (1 : BitVec 12).toNat = 1 ∧ (4094 : BitVec 12).toNat ≤ 4094 ∧ (4095 : BitVec 12).toNat = 4095
      ∧ 0 < (onCard workedCard).store.card.thermal.hold
      ∧ (State.reset.store.card.thermal.hold = 0 ∧ State.reset.thermal[(3 : Fin 4)].fallback = false)
      ∧ State.reset.thermal[(3 : Fin 4)].timer = none
      ∧ (after (exec (.pyroSample 3 1) (onCard workedCard))).thermal[(3 : Fin 4)].timer = some 300 := by decide +kernel

theorem witness_BandRevisionFirstCaseThatApplies :
    let t := workedThermal
    ¬ (4000 : Nat) < t.u0 ∧ (3899 + t.hysteresis < t.u0) ∧ ¬ (3900 + t.hysteresis < t.u0) := by decide

/-- A head record as a telegram carries it, at the ends of its ranges. -/
def rawHead (enabled : Byte) (strand : Byte) : RawHead :=
  { enabled := enabled, strand := strand, position := 0, mirrorColumn := 1, mirrorRange := 0, swap := 1, c0 := 511, pitch := 2000,
    offU := BitVec.ofInt 32 (-2000000), offV := 2000000, minPoints := 512, dark := 254, bright := 255 }

theorem witness_SetHeadAndSetCurveFirstCaseThatApplies :
    (∀ c, (onCard workedCard).serves c) ∧ headRecordOf { rawHead 1 0 with dark := 255 } = none
      ∧ (headRecordOf (rawHead 1 1)).isSome = true ∧ (headRecordOf (rawHead 0 3)).isSome = true
      ∧ (workedCard.heads[(0 : Fin 8)].enabled = true ∧ workedCard.heads[(0 : Fin 8)].strand = 1
          ∧ workedCard.heads[(0 : Fin 8)].position = 0)
      ∧ (500000 : Word32).toInt ≤ 500000 ∧ 500000 < (500001 : Word32).toInt := by
  refine ⟨fun c => serves_free _ c rfl rfl, ?_⟩; decide +kernel

/-- Limits as a telegram carries them. -/
def rawLimits (k : Byte) : RawLimits := { nominal := 10000000, lower := 1000000, upper := 1000000, kOpen := k, kClose := k, severity := 1 }

/-- A trended feature as a telegram carries it, of a kind. -/
def rawFeature (kind : Byte) (last : Word16) : RawFeature :=
  { featureId := 1, kind := kind, posA := 0, firstA := 511, lastA := last, posB := 1, firstB := 0, lastB := last, minPoints := 512,
    trended := 1, limits := rawLimits 15 }

theorem witness_SetFeatureAndClearFeatureFirstCaseThatApplies :
    let all := { workedCard with
      features := Vector.ofFn fun f => if f.val < 8 then some { gap6 with trended := true } else none }
    featureOf (rawFeature 4 511) = none ∧ featureOf { rawFeature 2 511 with posB := 0 } = none
      ∧ ((featureOf (rawFeature 2 512)).map fun p => (p.1.trended, p.2)) = some (true, true)
      ∧ ((featureOf (rawFeature 3 511)).map fun p => p.2) = some false
      ∧ trendedOthers all 31 = 8 ∧ trendedOthers all 7 = 7 := by decide +kernel

theorem witness_SetLimitsFirstCaseThatApplies :
    State.reset.store.card.features[(31 : Fin 32)] = none ∧ limitsOf { rawLimits 1 with upper := 999999 } = none
      ∧ ((limitsOf (rawLimits 0)).map fun p => p.2) = some true ∧ ((limitsOf (rawLimits 15)).map fun p => p.2) = some false
      ∧ workedCard.features[(6 : Fin 32)] = some gap6 := by decide +kernel

/-- A thermal section as a telegram carries it. -/
def rawThermal (u2 hold : Word16) : RawThermal :=
  { u0 := 0, u1 := 1, u2 := u2, k0 := 5000, k1 := 0, k2 := 0, k3 := 0, hysteresis := 500, defaultTemp := 6095, hold := hold }

theorem witness_SetThermalFirstCaseThatApplies :
    thermalOf (rawThermal 6096 0) = none ∧ ((thermalOf (rawThermal 6095 0)).map fun p => (p.1.hold, p.2)) = some (0, false)
      ∧ ((thermalOf (rawThermal 2 5001)).map fun p => (p.1.hold, p.2)) = some (5000, true)
      ∧ State.reset.thermal[(0 : Fin 4)].timer = none
      ∧ (after (exec (.holdTimerExpiry 0) (after (exec (.pyroSample 0 1) (onCard workedCard))))).thermal[(0 : Fin 4)].fallback = true := by
  decide +kernel

/-- The line section of a card as a telegram carries it. -/
def rawLine (pitch dHead : Word32) : RawLine :=
  { dHead := dHead, dSaw := 9000, scanPitch := pitch, scaleA := 250, scaleB := 400, weldLead := 5000, weldLength := 600,
    stopMargin := 300, stopSeverity := 1, noseCrop := 0, tailCrop := 0, minLength := 0, mergeGap := 100, blindLimit := 0,
    blindSeverity := 0, lineWait := 20 }

theorem witness_SetLineAndSetIdentityFirstCaseThatApplies :
    lineOf { rawLine 5000 1500 with scaleA := 0 } = none ∧ lineOf (rawLine 5000 1500) = some (workedLine, false)
      ∧ ((lineOf (rawLine 999 1500)).map fun p => (p.1.scanPitch, p.2)) = some (1000, true)
      ∧ ((lineOf (rawLine 999 1500)).map fun p => decide ({ p.1 with scanPitch := 5000 } = workedLine)) = some true
      ∧ ((lineOf (rawLine 5000 1501)).map fun p => decide ({ p.1 with scanPitch := 5000 } = workedLine)) = some false
      ∧ 5 ≤ (5 : Byte).toNat ∧ (4 : Byte).toNat ≤ 4 := by decide +kernel

theorem witness_BankLoadFirstCaseThatApplies :
    (∀ c, (banked (cardBank workedCard)).serves c) ∧ (∃ j, storingIn3.store.engine = .storing j ∧ j.bank = 3)
      ∧ storingIn3.store.banks[(7 : Fin 8)].valid = false ∧ storingIn3.tracker.press = .idle
      ∧ (banked { cardBank workedCard with digest := 0 }).store.banks[(2 : Fin 8)].content.crc
          ≠ (banked { cardBank workedCard with digest := 0 }).store.banks[(2 : Fin 8)].digest
      ∧ (banked (cardBank workedCard)).store.banks[(2 : Fin 8)].valid = true
      ∧ (banked (cardBank workedCard)).store.banks[(2 : Fin 8)].content.crc
          = (banked (cardBank workedCard)).store.banks[(2 : Fin 8)].digest
      ∧ (∀ j, (banked (cardBank workedCard)).store.engine ≠ .suspended j) := by
  refine ⟨fun c => serves_free _ c rfl rfl, ⟨_, rfl, rfl⟩, ?_, ?_, ?_, ?_, ?_, nofun⟩ <;> decide +kernel

theorem witness_BankStoreRunsToItsOutcome :
    (banked { cardBank Card.empty with lock := .held }).store.banks[(2 : Fin 8)].lock = .held
      ∧ storingIn3.store.engine ≠ .idle ∧ storingIn3.store.banks[(7 : Fin 8)].lock = .unlocked
      ∧ (∃ j, storingIn3.store.engine = .storing j ∧ (BankContent.card j.copy).crc = j.digest ∧ (BankContent.bytes []).crc ≠ j.digest) := by
  refine ⟨by decide +kernel, by decide +kernel, by decide +kernel, ⟨_, rfl, by decide +kernel, by decide +kernel⟩⟩

theorem witness_BankLockAndSetBootFirstCaseThatApplies :
    (∀ c, (banked { Bank.neverStored with lock := .fixed }).serves c) ∧ 3 ≤ (3 : Byte).toNat
      ∧ (banked { Bank.neverStored with lock := .fixed }).store.banks[(2 : Fin 8)].lock = .fixed
      ∧ (banked { Bank.neverStored with lock := .held }).store.banks[(2 : Fin 8)].lock = .held
      ∧ State.reset.store.banks[(7 : Fin 8)].lock = .unlocked ∧ (8 : Byte) ≠ 0xFF ∧ (7 : Byte).toNat = (7 : Fin 8).val
      ∧ ∃ j, storingIn3.store.engine = .storing j ∧ j.bank = 3 := by
  refine ⟨fun c => serves_free _ c rfl rfl, ?_, ?_, ?_, ?_, ?_, ?_, ⟨_, rfl, rfl⟩⟩ <;> decide +kernel

theorem witness_ReadinessIsTheFirstCheckThatFails : ∃ (c : Card) (passes : Nat → Prop),
    (passes 1 ↔ 1 ≤ c.strands)
    ∧ (passes 2 ↔ ∀ i : Fin 4, i.val < c.strands → ∃ h, c.heads[(h : Fin 8)].enabled = true ∧ c.heads[h].strand = i)
    ∧ (passes 3 ↔ ∃ f, (c.features[(f : Fin 32)]).isSome = true)
    ∧ (passes 4 ↔ ∀ (f : Fin 32) (x : Feature) (p : Place), c.features[f] = some x → (p = x.placeA ∨ x.placeB = some p) →
        ∀ i : Fin 4, i.val < c.strands →
          ∃ h, c.heads[(h : Fin 8)].enabled = true ∧ c.heads[h].strand = i ∧ c.heads[h].position = p.position)
    ∧ (passes 5 ↔ c.line.dHead + 2000 ≤ c.line.dSaw) ∧ (passes 6 ↔ c.thermal.u0 < c.thermal.u1 ∧ c.thermal.u1 < c.thermal.u2) := by
  refine ⟨Card.empty, fun n => n = 2 ∨ n = 4, ?_⟩
  refine ⟨by decide, ⟨fun _ i h => absurd h (Nat.not_lt_zero _), fun _ => .inl rfl⟩, by decide +kernel,
    ⟨fun _ f x p h _ => ?_, fun _ => .inr rfl⟩, by decide, by decide⟩
  simp [Card.empty] at h

theorem witness_RunStartFirstCaseThatApplies :
    (onCard workedCard).serves .runStart ∧ (onCard workedCard).tracker.press = .idle ∧ (onCard workedCard).scan.check = none
      ∧ readiness (onCard workedCard).store.card = 0 ∧ readiness State.reset.store.card ≠ 0 ∧ checking.scan.check.isSome = true
      ∧ (pressed .ending (strandAt .tailing 0)).tracker.press ≠ .idle := by
  refine ⟨serves_free _ _ rfl rfl, ?_⟩; decide +kernel

theorem witness_BilletJoinAndStopAddPredictedZones :
    ∃ (s : State) (p x e : Int) (coming admitted late : Fin 4 → Bool) (grown : Strand → Strand) (zone : Strand → ClosedZone),
      s.serves .billetJoin ∧ p = ((s.runout.travel / 1000 : Nat) : Int) ∧ s.tracker.press = .stopped
      ∧ x = p + s.store.card.line.weldLead
      ∧ e = p + s.store.card.line.weldLead
          + (if s.store.card.line.weldLength = 0 then 1 else s.store.card.line.weldLength)
      ∧ (∀ st, grown st = { st with billet := min 65535 (st.billet + 1) })
      ∧ (∀ st, zone st = { number := st.nextZone, cls := .weld, feature := none, severity := .cutout, start := max x st.lastCut,
                           finish := e, sides := none, worst := none, billet := some (min 65535 (st.billet + 1)),
                           sources := { dimension := false, blind := false, weld := true, stop := false } })
      ∧ (∀ i, coming i = true ↔ s.tracker.strands[i].state = .nose ∨ s.tracker.strands[i].state = .running)
      ∧ (∀ i, admitted i = true ↔ coming i = true ∧ s.tracker.strands[i].lastCut < e)
      ∧ (∀ i, late i = true ↔ coming i = true ∧ (e ≤ s.tracker.strands[i].lastCut
          ∨ x < s.tracker.strands[i].lastCut ∧ s.tracker.strands[i].nose < s.tracker.strands[i].lastCut))
      ∧ admitted 0 = true ∧ late 0 = true := by
  refine ⟨pressed .stopped (strandAt .running 5599), 0, 5000, 5600, fun i => decide (i = 0), fun i => decide (i = 0),
    fun i => decide (i = 0), _, _, serves_free _ _ rfl rfl, by decide +kernel, by decide +kernel, by decide +kernel,
    by decide +kernel, fun _ => rfl, fun _ => rfl, by decide +kernel, by decide +kernel, by decide +kernel, by decide, by decide⟩

theorem witness_StopResumeAndRunEndMoveThePress :
    (∀ c, (pressed .stopped (strandAt .running 0)).serves c) ∧ (pressed .running (strandAt .running 0)).tracker.press = .running
      ∧ (pressed .stopped (strandAt .nose 0)).tracker.press = .stopped ∧ (pressed .ending (strandAt .tailing 0)).tracker.press = .ending
      ∧ State.reset.tracker.press = .idle := by
  refine ⟨fun c => serves_free _ c rfl rfl, ?_⟩; decide +kernel

theorem witness_RunCloseAndWithdrawFormFinalLengths :
    (∀ c, (pressed .running (strandAt .running 0)).serves c) ∧ State.reset.tracker.press = .idle
      ∧ (pressed .running (strandAt .running 0)).tracker.strands[(0 : Fin 4)].active = true
      ∧ (pressed .running (strandAt .running 0)).tracker.strands[(3 : Fin 4)].active = false
      ∧ finalUpper (strandAt .running (-1500)) (headCoordinate workedLine 0) ≤ (strandAt .running (-1500)).lastCut
      ∧ (strandAt .running (-1501)).lastCut < finalUpper (strandAt .running (-1501)) (headCoordinate workedLine 0)
      ∧ 4 ≤ (4 : Byte).toNat := by
  refine ⟨fun c => serves_free _ c rfl rfl, ?_⟩; decide +kernel

theorem witness_GaugeLatchesHoldOneCopy :
    let s := after (exec (.strandEvaluation 0) (evaluating true))
    16 ≤ (16 : Byte).toNat ∧ (15 : Byte).toNat ≤ 15 ∧ s.report.latches[(0 : Fin 4)] = none ∧ (s.engine.last[(0 : Fin 4)]).isSome = true
      ∧ ((after (exec (.gaugeLatch 15) s)).report.latches[(0 : Fin 4)]).isSome = true := by decide +kernel

theorem witness_ReportDropFirstCaseThatApplies :
    State.reset.report.queue = [] ∧ (record .accept 1).sequence ≠ (65535 : Word16).toNat
      ∧ (record .accept 1).sequence = (0 : Word16).toNat := by decide +kernel

theorem witness_ClearFlagsClearsWhatTheMaskNames :
    State.reset.serves (.clearFlags 0xFFFF 1) ∧ 2 ≤ (2 : Byte).toNat ∧ (1 : Byte).toNat ≤ 1 :=
  ⟨serves_free _ _ rfl rfl, by decide, by decide⟩

theorem witness_CountersAlarmMaskAndOutputLines :
    State.reset.serves .clearCounters ∧ State.reset.serves (.setAlarmMask 0xFFFF) ∧ State.reset.powered = true :=
  ⟨serves_free _ _ rfl rfl, serves_free _ _ rfl rfl, rfl⟩

theorem witness_WatchdogFailsafeAndRestart :
    (∀ c, State.reset.serves c) ∧ (49 : Word16).toNat ≤ 49 ∧ 50 ≤ (50 : Word16).toNat ∧ (60000 : Word16).toNat ≤ 60000
      ∧ 60000 < (60001 : Word16).toNat ∧ State.reset.link.deadline = none
      ∧ (after (exec (.setWatchdog 1) State.reset)).link.deadline = some 50 := by
  refine ⟨fun c => serves_free _ c rfl rfl, ?_⟩; decide +kernel

/-! ### The link driver, RUN_START and a card's bytes -/

theorem test_canonical_bytes_are_their_card :
    cardOfContent (canonical workedCard) = some workedCard ∧ cardOfContent [] = none ∧ cardOfContent (canonical workedCard ++ [0]) = none
      ∧ (BankContent.bytes (canonical workedCard)).asCard = workedCard := by decide +kernel

theorem test_sending_part_receives_nothing :
    let s := after (exec .status (serving .status State.reset))
    let t := after (step s)
    s.link.driver = false ∧ t.link.driver = true
      ∧ (after (exec (.linkFrame (frameOf 1 1 [])) s)).report.counters.overrun = 1
      ∧ after (exec (.linkFrame (frameOf 1 1 [])) t) = t
      ∧ (after (exec .replySent t)).link.driver = false := by decide +kernel

theorem test_run_start_drops_waiting_reports :
    let s := (onCard workedCard).withTracker { State.reset.tracker with reports := 1, reportsDue := 2 }
    ((after (exec .runStart s)).tracker.reports, (after (exec .runStart s)).tracker.reportsDue) = (0, 0) := by decide +kernel

/-! ### Layouts of the replies (R54, R113, R141, R152, R164 to R166, R168, R171, R176) -/

/-- A zone entry with every field present. -/
def fullZone : ClosedZone :=
  { number := 513, cls := .merged, feature := some 6, severity := .cutout, start := -2, finish := 70000, sides := some .both,
    worst := some { excess := 300, w := -40 }, billet := some 770, sources := { dimension := true, blind := false, weld := true, stop := true } }

theorem test_zone_entry_layout :
    let p := zoneFields fullZone
    p.length = 25 ∧ [(0, 2), (2, 1), (3, 1), (4, 1), (5, 4), (9, 4), (13, 1), (14, 4), (18, 4), (22, 2), (24, 1)].map
        (fun f => numberAt p f.1 f.2) = [513, 4, 6, 2, 4294967294, 70000, 2, 300, 4294967256, 770, 13]
      ∧ [(3, 1), (13, 1), (14, 4), (18, 4), (22, 2)].map (fun f => numberAt (zoneFields
          { fullZone with feature := none, sides := none, worst := none, billet := none }) f.1 f.2) = [255, 255, 0, 0, 0] := by
  decide +kernel

/-- A part in motion, for the layouts of the readouts. -/
def busy : State :=
  let s := slotted (some (slotIn .waiting false [flatLine 1])) none (some (slotIn .closed false [])) none
  let s := s.withRunout { s.runout with travel := 14000000, cuts := [1, 2, 3], active := .b }
  let s := s.withScan { s.scan with
    skips := some { count := 259, first := -1 },
    heads := setAt s.scan.heads 5 { state := .blinded, miss := 3, sparse := 9, lastLine := some { valid := 260, peak := 77 }, check := .sparse } }
  let s := s.withReport { s.report with flags := 0x7FF, queue := [record .short 5] }
  (s.withStore { s.store with
    pendingLimits := setAt s.store.pendingLimits 9 (some limits6), boot := some 4, lastOutcome := .fail 6,
    engine := .storing { bank := 3, copy := workedCard, digest := 0 },
    banks := setAt s.store.banks 2 { Bank.neverStored with valid := true, die := 70000, revision := 515, digest := 9, lock := .fixed, storeCount := 258 } }).withVerdict
      { s.verdict with last := setAt s.verdict.last 1 (some .tail) }

theorem test_status_layout :
    let p := 0 :: 0 :: statusFields busy
    p.length = 66 ∧ [(2, 8), (10, 1), (11, 1), (12, 1), (13, 1), (14, 1), (17, 2), (19, 1), (20, 1), (29, 2), (38, 1), (41, 1), (42, 2), (44, 1),
        (45, 1), (46, 1), (47, 1), (50, 1), (51, 1), (52, 4), (56, 1), (57, 1), (58, 1), (59, 1), (60, 1), (61, 1), (62, 1), (63, 2), (65, 1)].map
        (fun f => numberAt p f.1 f.2)
      = [14000000, 1, 3, 1, 3, 0, 2000, 3, 0, 2000, 3, 2, 259, 0, 0, 0, 4, 15, 1, (digestOf Card.empty).toNat, 0, 1, 4, 1, 3, 2, 6, 2047, 1] := by
  decide +kernel

theorem test_bank_and_head_info_layouts :
    let p := bankInfoFields busy.store
    let q := headInfoFields busy
    p.length = 117 ∧ [(28, 1), (29, 4), (33, 2), (35, 4), (39, 1), (40, 2), (112, 1), (113, 1), (114, 1), (115, 1), (116, 1)].map
        (fun f => numberAt p f.1 f.2) = [1, 70000, 515, 9, 2, 258, 4, 1, 3, 2, 6]
      ∧ q.length = 73 ∧ [(45, 1), (46, 1), (47, 1), (48, 1), (49, 2), (51, 1), (52, 1), (53, 1), (4, 2), (6, 1), (7, 1), (72, 1)].map
        (fun f => numberAt q f.1 f.2) = [0, 3, 3, 9, 260, 1, 77, 6, 65535, 0, 0, 0] := by decide +kernel

/-- A strand with a list of zones and an open one. -/
def tracked : Strand :=
  { strandAt .tailing (-5) with
    tail := some 99, billet := 258, lowerBillet := 257, lengthIndex := 300, nextZone := 400, cutLost := true,
    closed := List.replicate 10 fullZone,
    dimensions := setAt (Vector.replicate 32 none) 6 (some { number := 1, start := 100, sides := .low, worst := ⟨1, 0⟩ }),
    blinds := setAt (Vector.replicate 32 none) 31 (some { number := 2, start := -7 }) }

theorem test_track_layout :
    let p := trackFields tracked 9
    p.length = 62 ∧ [(0, 1), (1, 4), (5, 4), (9, 4), (13, 2), (15, 2), (17, 2), (19, 2), (21, 1), (22, 1), (23, 2), (48, 1), (49, 1), (50, 4), (54, 4),
        (58, 4)].map (fun f => numberAt p f.1 f.2)
      = [4, 0, 99, 4294967291, 258, 257, 300, 400, 1, 10, 513, 1, 1, 64, 2147483648, 4294967289]
      ∧ numberAt (trackFields (strandAt .nose 0) 0) 5 4 = 2147483648 ∧ numberAt (trackFields (strandAt .nose 0) 0) 33 4 = 2147483648 := by
  decide +kernel

theorem test_record_and_report_layouts :
    let r := { record .tail 6000 with
      sequence := 513, strand := 3, index := 259, lower := -1, upper := 5999, cold := 5900, tMean := 5001, fallback := true, firstBillet := 300, lastBillet := 301,
      digest := 7, omitted := 260, zones := [fullZone], trends := [{ feature := 6, extreme := { least := some (-3), greatest := some 4, missing := 258 } }],
      reasons := { dimension := true, blind := false, weld := true, stop := false, cropSpan := true, failsafe := false, cutLost := true,
                   withdrawn := false, aborted := true } }
    let p := reportFields { busy.report with queue := [r], tally := { lengths := 1, rejects := 2, millis := 70000 } }
    p.length = 13 + 39 + 12 + 25 ∧ [(0, 1), (1, 4), (5, 4), (9, 4)].map (fun f => numberAt p f.1 f.2) = [1, 1, 2, 70000]
      ∧ [(0, 2), (2, 1), (3, 2), (5, 4), (9, 4), (13, 4), (17, 4), (21, 2), (23, 1), (24, 1), (25, 2), (27, 2), (29, 2), (31, 4), (35, 1), (36, 1), (37, 2),
        (39, 1), (40, 1), (41, 4), (45, 4), (49, 2), (51, 2)].map (fun f => numberAt (p.drop 13) f.1 f.2)
      = [513, 3, 259, 4294967295, 5999, 6000, 5900, 5001, 1, 3, 1 + 4 + 16 + 64 + 256, 300, 301, 7, 1, 1, 260, 6, 1, 4294967293, 4, 258, 513] := by
  decide +kernel

theorem test_gauge_layout :
    let r : LastResults := {
      number := 513, x := -3, temperature := 5001, band := 2, manual := true,
      features := setAt (setAt (Vector.replicate 32 none) 31 (some (.found .high (-1) 70000))) 0 (some .missing) }
    let p := gaugeFields (some r)
    p.length = 299 ∧ [(0, 1), (1, 2), (3, 4), (7, 2), (9, 1), (10, 1), (11, 1), (12, 4), (16, 4), (20, 1), (290, 1), (291, 4), (295, 4)].map
        (fun f => numberAt p f.1 f.2) = [1, 513, 4294967293, 5001, 2, 1, 3, 0, 0, 255, 2, 4294967295, 70000]
      ∧ (gaugeFields none).length = 299 ∧ numberAt (gaugeFields none) 10 1 = 0 ∧ numberAt (gaugeFields none) 290 1 = 255 := by decide +kernel


theorem test_card_section_layouts :
    let c := { workedCard with
      die := 70000, revision := 515, alloy := 7,
      heads := setAt workedCard.heads 7 { head 2 3 with swap := true, c0 := 258, pitch := 515, offU := -2, offV := 70000, minPoints := 300, dark := 40, bright := 230 } }
    let x := { busy.store with card := c }
    let read := fun part index (fields : List (Nat × Nat)) =>
      (cardFields x part index).map fun p => (p.length, fields.map fun f => numberAt p f.1 f.2)
    read 0 255 [(0, 4), (4, 2), (6, 1), (7, 1)] = some (8, [70000, 515, 7, 2])
      ∧ read 1 7 [(0, 1), (1, 1), (2, 1), (5, 1), (6, 2), (8, 2), (10, 4), (14, 4), (18, 2), (20, 1), (21, 1)]
          = some (22, [1, 2, 3, 1, 258, 515, 4294967294, 70000, 300, 40, 230])
      ∧ read 3 31 [(0, 1)] = some (1, [0])
      ∧ read 3 6 [(0, 1), (1, 2), (3, 1), (4, 1), (5, 2), (7, 2), (9, 1), (10, 2), (12, 2), (14, 2), (16, 1), (17, 4), (21, 4), (25, 4), (29, 1), (30, 1), (31, 1)]
          = some (32, [1, 6, 2, 0, 430, 440, 1, 430, 440, 3, 0, 3000, 4294967246, 50, 3, 2, 1])
      ∧ read 4 0 [(0, 2), (2, 2), (4, 2), (6, 2), (12, 2), (14, 2), (16, 2), (18, 2)] = some (20, [4000, 4800, 5400, 2300, 2450, 100, 5000, 300])
      ∧ read 5 0 [(0, 4), (4, 4), (8, 4), (12, 4), (16, 4), (20, 4), (24, 4), (28, 4), (32, 1), (45, 4), (49, 2), (51, 1), (52, 2)]
          = some (54, [1500, 9000, 5000, 250, 400, 5000, 600, 300, 1, 100, 0, 0, 20])
      ∧ read 6 0 [(0, 1), (1, 1), (2, 4), (16, 1)] = some (17, [1, 9, 3000, 1])
      ∧ ((featureFields { gap6 with kind := .flat, placeB := none }).drop 8).take 5 = List.replicate 5 255 := by
  decide +kernel

theorem test_counter_layout :
    let p := counterFields { linkCrc := 1, overrun := 2, lineCrc := 3, duplicate := 4, lateLine := 5, skipped := 6, lateResult := 7, coarsening := 8, lostCut := 770 }
    p.length = 18 ∧ (List.range 9).map (fun n => numberAt p (2 * n) 2) = [1, 2, 3, 4, 5, 6, 7, 8, 770] := by decide +kernel

theorem test_extremes_fold :
    let xs := foldTrended [{ feature := 3, w := some 5 }, { feature := 3, w := some 4 }, { feature := 3, w := none }] (Vector.replicate 32 Extreme.empty)
    xs[(3 : Fin 32)] = { least := some 4, greatest := some 5, missing := 1 } ∧ xs[(2 : Fin 32)] = Extreme.empty
      ∧ (foldTrended [{ feature := 3, w := none }] (Vector.replicate 32 { Extreme.empty with missing := 65535 }))[(3 : Fin 32)].missing = 65535 := by
  decide +kernel

/-! ### Witnesses for single clauses -/

/-- A part that is sending a reply. -/
def sending : State := after (step (after (exec .status (serving .status State.reset))))

theorem witness_DriverOn : sending.powered = true ∧ sending.link.driver = true ∧ State.reset.link.driver = false := by decide +kernel

theorem witness_BadEventCode : lengthOf (17 : Byte).toNat = some 1 ∧ 5 ≤ (5 : Byte).toNat ∧ 5 ≤ (255 : Byte).toNat := by decide

theorem witness_BootBankOfBytes :
    let s := banked { cardBank workedCard with content := .bytes (canonical workedCard) }
    workedCard.inRange = true ∧ s.store.banks[(2 : Fin 8)].valid = true ∧ s.store.banks[(2 : Fin 8)].intact = true
      ∧ s.store.banks[(2 : Fin 8)].content.crc = s.store.banks[(2 : Fin 8)].digest := by decide +kernel

/-- For the last part of SupplyFailureLosesStore: a request that writes nothing, and requests that would be refused. -/
theorem witness_SupplyFailureWritesNothing :
    (∃ v, (serving .status State.reset).link.service = some v ∧ v.request = some .status)
      ∧ (8 ≤ (8 : Byte).toNat ∧ (8 : Byte) ≠ 0xFF) ∧ (indexOf 8 3 = some 3 ∧ storingIn3.store.isStoring 3 = true)
      ∧ (banked { Bank.neverStored with lock := .held }).store.banks[(2 : Fin 8)].lock ≠ .unlocked
      ∧ storingIn3.store.engine ≠ .idle := by
  refine ⟨⟨_, rfl, rfl⟩, ?_⟩; decide +kernel

/-- A coarse encoder one count before it crosses the pitch three times, with a part of the count owed. -/
def coarse : State :=
  ((onCard { workedCard with line := { workedLine with scaleA := 5000 } }).withTracker { State.reset.tracker with press := .running }).withRunout
    { State.reset.runout with travel := 101500, remainder := 1500, pitch := 2000, deficitA := 400, nextPitch := some 1000 }

/-- For the clause of several crossings of ForwardCountPaysDeficitThenDraws. -/
theorem witness_CountCrossesSeveralTimes :
    coarse.TravelSound ∧ 0 < coarse.runout.deficit .a ∧ coarse.runout.deficit .a < scaleOf coarse.store.card.line .a
      ∧ coarse.runout.active = .a ∧ coarse.runout.mode = .distance ∧ coarse.tracker.press ≠ .idle
      ∧ (1500 + (min 1099511627775 (101500 + (5000 - 400)) - 101500) - 2000) / 1000 + 1 = 5
      ∧ (after (exec (.forwardCount .a) coarse)).runout.remainder = 100 := by
  refine ⟨⟨by decide, by decide, by decide, by decide, nofun, by decide, fun p h => ?_, by decide, by decide⟩, ?_⟩
  · cases h; decide
  · decide +kernel

/-- For the first part of DistanceTriggerTakesLowestFreeSlot: no head enabled, with the new slot or another the oldest. -/
theorem witness_TriggerWithoutHeads :
    let base := fun a b : Option Slot => State.reset.withScan { State.reset.scan with nextNumber := 8, slots := #v[a, b, none, none] }
    let taken := fun (s : State) (i : Fin 4) => { s.scan with
      nextNumber := 9, slots := setAt s.scan.slots i (some { slotIn .closed false [] with number := 8 }) }
    (∀ h, State.reset.store.card.heads[(h : Fin 8)].enabled = false)
      ∧ ((taken (base none none) 0).oldest (fun _ => true) = some 0 ∧ ∀ j, (taken (base none none) 0).holds (fun m => m.phase == .evaluating) j = false)
      ∧ ((taken (base (some (slotIn .waiting false [])) none) 1).oldest (fun _ => true) = some 0)
      ∧ ((taken (base (some (slotIn .closed true [])) none) 1).oldest (fun _ => true) = some 0)
      ∧ (taken (base (some (slotIn .evaluating true [])) none) 1).holds (fun m => m.phase == .evaluating) 0 = true := by
  decide +kernel

/-- For the first part of TriggerWithoutFreeSlotIsSkipped. -/
theorem witness_AllSlotsHeld :
    let k := some (slotIn .closed false [])
    let w := some (slotIn .waiting false [flatLine 0])
    (∀ i, (slotted k k k k).scan.slots[(i : Fin 4)].isSome = true)
      ∧ (slotted k k k k).scan.oldest (fun k => k.phase == .waiting) = none
      ∧ (slotted k w k k).scan.oldest (fun k => k.phase == .waiting) = some 1
      ∧ (slotIn .waiting false [flatLine 0]).expected.contains 1 = true ∧ (slotIn .waiting false [flatLine 0]).received 1 = false
      ∧ (slotted k w k k).store.card.heads[(1 : Fin 8)].enabled = true := by decide +kernel

/-- For the other parts of TakeCutFormsLengths, and its clause of a strand that ends without a length beside one that goes on. -/
theorem witness_EndsWithoutALength :
    let s := (pressed .ending { strandAt .tailing 4999 with tail := some 4999 }).withRunout { State.reset.runout with cuts := [14000000] }
    let t := s.withTracker { s.tracker with strands := setAt s.tracker.strands 1 { strandAt .tailing 5000 with tail := some 9000 } }
    (∀ i, t.tracker.strands[(i : Fin 4)].formsLength 5000 = false) ∧ t.tracker.strands[(0 : Fin 4)].takesCut 5000 = true
      ∧ (after (exec .takeCut t)).tracker.strands[(1 : Fin 4)].active = true
      ∧ (List.replicate 63 (record .accept 1)).length < 64 ∧ 64 ≤ (List.replicate 64 (record .accept 1)).length
      ∧ State.reset.store.pendingLimits[(6 : Fin 32)] = none ∧ busy.store.pendingLimits[(9 : Fin 32)] ≠ none := by decide +kernel

/-- For the first parts of TriggerLineFirstCaseThatApplies and CheckLineGivesTheHeadsResult. -/
theorem witness_LinesOfNoHead : ∀ trigger, trigger = 65534 ∨ trigger = 65535 →
    lineOfFrame (frameOfLine { head := 8, trigger := trigger, peak := 100, codes := (flatLine 7).codes })
      = some { head := 8, trigger := trigger, peak := 100, codes := (flatLine 7).codes } := by
  rintro t (rfl | rfl) <;> decide +kernel


/-- The worked card with the line of head 1 at a height of 3 mm. -/
def gapCard : Card := { workedCard with curves := setAt workedCard.curves 1 (Vector.replicate 17 3000) }

/-- A track slot with the lines of both heads of strand 1, and skips carried. -/
def fullSlot : Slot :=
  { slotIn .evaluating false [flatLine 0, flatLine 1] with
    x := 40, skips := some { count := 2, first := 10 },
    capture := Vector.replicate 4 { temperature := 2000, band := 3, fallback := false } }

/-- For the first three parts of EvaluationWritesResultsAndFreesSlot. -/
theorem witness_PointsAndResults :
    Rounds ((3000 - 1000) * (1 : Nat)) 4096 0 ∧ Rounds (-5) 2 (-3) ∧ ¬ Rounds (-5) 2 (-2)
      ∧ (∀ h, h = (1 : Fin 8) ↔ gapCard.heads[h].enabled = true ∧ gapCard.heads[h].strand = 1 ∧ gapCard.heads[h].position = 1)
      ∧ (∀ h, ¬ (gapCard.heads[(h : Fin 8)].enabled = true ∧ gapCard.heads[h].strand = 3 ∧ gapCard.heads[h].position = 0))
      ∧ (pointSet gapCard fullSlot.lines 1 gap6.placeA).map Prod.snd = List.replicate 11 0
      ∧ (pointSet gapCard fullSlot.lines 1 { gap6.placeA with position := 1 }).map Prod.snd = List.replicate 11 3000
      ∧ gapCard.features[(6 : Fin 32)] = some gap6 ∧ Rounds (List.replicate 11 (3000 : Int)).sum 11 3000
      ∧ Rounds ((3000 - 0) * 2450 * (2000 - 200)) 1000000000 13
      ∧ featureResult gapCard fullSlot 1 6 = some (.found .inside 3000 2987)
      ∧ featureResult gapCard { fullSlot with lines := [flatLine 1] } 1 6 = some .missing
      ∧ featureResult workedCard fullSlot 1 6 = some (.found .low 0 0) := by
  refine ⟨by unfold Rounds; decide, by unfold Rounds; decide, by unfold Rounds; decide, by decide +kernel, by decide +kernel, by decide +kernel,
    by decide +kernel, by decide +kernel, by unfold Rounds; decide, by unfold Rounds; decide, by decide +kernel, by decide +kernel, by decide +kernel⟩

/-- For the later parts of OutRunsOpenAndInRunsCloseZones: each case of a miss run, an in run and an out run, with skips carried. -/
theorem witness_RunsOfEachKind :
    let opened : Persistence := { Persistence.clear with zone := some { start := 5, worst := { excess := 1, w := 0 } } }
    let missed : Persistence := { Persistence.clear with miss := some { count := 254, start := 40 } }
    missed.miss_ 255 1 41 = ({ missed with miss := some { count := 255, start := 40 }, blind := true }, some 40)
      ∧ missed.miss_ 0 1 41 = ({ missed with miss := some { count := 255, start := 40 } }, none)
      ∧ ({ missed with blind := true }).endMiss 40 = (Persistence.clear, some 41)
      ∧ opened.in_ 2 6 = ({ opened with inRun := some { count := 1, start := 6 } }, none)
      ∧ opened.in_ 1 5 = (Persistence.clear, some 6)
      ∧ (opened.out_ 15 .high 6 { excess := 2, w := 9 }).2 = .updated (some { excess := 2, w := 9 })
      ∧ (opened.out_ 15 .high 6 { excess := 1, w := 9 }).2 = .updated none
      ∧ fullSlot.skips = some { count := 2, first := 10 }
      ∧ eventsOf { gapCard with line := { workedLine with blindLimit := 3 } } { fullSlot with lines := [] } 1 (Vector.replicate 32 Persistence.clear)
          = [.scan { strand := 1, x := 40, temperature := 2000, fallback := false, trended := [] },
             .start { strand := 1, feature := 6, start := 10, finding := .blind }]
      ∧ eventsOf { gapCard with line := { workedLine with blindLimit := 2 } } fullSlot 1 (Vector.replicate 32 Persistence.clear)
          = [.start { strand := 1, feature := 6, start := 10, finding := .blind },
             .scan { strand := 1, x := 40, temperature := 2000, fallback := false, trended := [] },
             .close { strand := 1, feature := 6, kind := .blind, finish := 40 }] := by decide +kernel

/-- For the second and fourth parts of ZoneCloseEventClosesTheZone. -/
theorem witness_InsertionAndSmallestGap :
    let a := dimensionZone 1 6 100 150 .low 1
    let b := dimensionZone 2 5 150 180 .high 2
    ((∀ y ∈ [a], y.start ≤ b.start) ∧ ∀ y ∈ [a].head?, ¬ b.start < y.start)
      ∧ (∀ pre post y z, [] ++ a :: b :: [] = pre ++ y :: z :: post →
          b.start - a.finish ≤ z.start - y.finish ∧ (z.start - y.finish = b.start - a.finish → 0 ≤ pre.length))
      ∧ coarsen [a, b] = [joinZones a b] := by
  refine ⟨by decide, fun pre post y z h => ?_, by decide⟩
  match pre with
  | [] => simp at h; obtain ⟨rfl, rfl, rfl⟩ := h; exact ⟨Int.le_refl _, fun _ => Nat.le_refl _⟩
  | [_] => simp at h
  | _ :: _ :: _ => simp at h

/-- For the first part of VerdictIsTheFirstCaseThatApplies: 13 candidates, and a length with samples and one without. -/
theorem witness_CandidatesBeyondTwelve :
    let st := { strandAt .running 0 with
      closed := dimensionZone 99 6 1 2 .low 1 :: (List.range 12).map fun n => { dimensionZone n 6 (2 * n + 3) (2 * n + 4) .low 1 with severity := .major } }
    let r := lengthRecord workedCard 0 (ThermalRecord.fresh workedThermal 0) .normal .cut 0 { st with scanCount := 2, tempSum := 5001 } 100
    (candidates workedCard 100 st).length = 13 ∧ r.omitted = 1 ∧ r.zones.map ClosedZone.number = List.range 12 ∧ r.tMean = 2501
      ∧ (strandAt .running 0).scanCount = 0 := by decide +kernel

/-- For the last parts of TriggerLineFirstCaseThatApplies: a line that leaves a head awaited, and the last line expected. -/
theorem witness_LineAcceptedAndLastLine :
    let open_ := fun lines => slotIn .waiting false lines
    (slotted (some (open_ [])) none none none).scan.openWith 7 = some 0
      ∧ ((open_ []).expected.contains 1 = true ∧ (1 : Fin 8) ≠ 0 ∧ (open_ []).received 1 = false)
      ∧ ((open_ [flatLine 1]).received 0 = false ∧ ∀ h, (open_ [flatLine 1]).expected.contains h = true → h = 0 ∨ (open_ [flatLine 1]).received h = true) := by
  decide +kernel

/-- For each case of HandsOver: a slot EVALUATING, none in hand, and the oldest slot CLOSED or still OPEN. -/
theorem witness_HandsOver :
    let s := fun a b => slotted (some a) (some b) none none
    let older := { slotIn .closed false [] with number := 6 }
    let newer := slotIn .waiting false []
    (∃ j k, (s older { newer with phase := .evaluating }).scan.slots[(j : Fin 4)] = some k ∧ k.phase = .evaluating)
      ∧ (∀ j, State.reset.scan.slots[(j : Fin 4)] = none)
      ∧ ((s newer older).scan.slots[(1 : Fin 4)] = some older ∧ (s newer older).scan.distance newer < (s newer older).scan.distance older)
      ∧ (s newer newer).scan.distance newer = (s newer newer).scan.distance newer ∧ older.phase = .closed ∧ newer.phase ≠ .closed := by
  refine ⟨⟨1, _, rfl, rfl⟩, by decide +kernel, ⟨rfl, by decide +kernel⟩, rfl, rfl, by decide⟩

end Sys2Proof.Tests
end

section
/-! The reverse count and the change of PULLER SELECT (R16, R18, R19): what each does to the travel unit of a powered part. -/

namespace Sys2Proof.Machine

theorem exec_reverseCount (ch : Puller) (s : State) : exec (.reverseCount ch) s = execReverseCount ch s := rfl

theorem exec_pullerSelectChange (s : State) : exec .pullerSelectChange s = execPullerSelectChange s := rfl

/-- A reverse count adds the channel's scale to its deficit and stops at 4294967295 (R17, R18). -/
theorem TravelUnit.back_eq (ch : Puller) (scale : Nat) (r : TravelUnit) :
    r.back ch scale = r.withDeficit ch (min 4294967295 (r.deficit ch + scale)) := rfl

/-- From carriage A the change goes to B, whose deficit starts at zero; A keeps its own (R19). -/
theorem TravelUnit.switch_of_active_a {r : TravelUnit} (h : r.active = .a) : r.switch = { r with active := .b, deficitB := 0 } := by
  rw [TravelUnit.switch, h]; rfl

/-- From carriage B the change goes to A, whose deficit starts at zero; B keeps its own (R19). -/
theorem TravelUnit.switch_of_active_b {r : TravelUnit} (h : r.active = .b) : r.switch = { r with active := .a, deficitA := 0 } := by
  rw [TravelUnit.switch, h]; rfl

/-- A count of the carriage that does not draw is ignored (R16). -/
theorem exec_reverseCount_of_inactive {s : State} {ch : Puller} (hp : s.powered = true) (h : s.runout.active ≠ ch) :
    exec (.reverseCount ch) s = .next s := by
  rw [exec_reverseCount, execReverseCount, State.event_powered _ hp, if_neg h]

theorem exec_reverseCount_of_active {s : State} {ch : Puller} (hp : s.powered = true) (h : s.runout.active = ch) :
    exec (.reverseCount ch) s = .next (s.withRunout (s.runout.back ch (scaleOf s.store.card.line ch))) := by
  rw [exec_reverseCount, execReverseCount, State.event_powered _ hp, if_pos h]

theorem exec_pullerSelectChange_powered {s : State} (hp : s.powered = true) :
    exec .pullerSelectChange s = .next (s.withRunout s.runout.switch) := by
  rw [exec_pullerSelectChange, execPullerSelectChange, State.event_powered _ hp]

/-- Settles O24, by the carriage that draws: whether it is the one counted, and which one the change leaves. -/
theorem reverseCountsAndPullerSelectSetDeficits : Obligations.ReverseCountsAndPullerSelectSetDeficits := by
  unfold Obligations.ReverseCountsAndPullerSelectSetDeficits
  refine ⟨fun s ch hp => ⟨exec_reverseCount_of_inactive hp, fun hactive => ?_⟩, fun s hp => ⟨fun ha => ?_, fun hb => ?_⟩⟩
  · rw [exec_reverseCount_of_active hp hactive, TravelUnit.back_eq, State.withRunout]
  · rw [exec_pullerSelectChange_powered hp, TravelUnit.switch_of_active_a ha, State.withRunout]
  · rw [exec_pullerSelectChange_powered hp, TravelUnit.switch_of_active_b hb, State.withRunout]

end Sys2Proof.Machine
end

section
/-! REPORT_DROP and CLEAR_FLAGS (R169, R173): what each does to the report unit, and the reply it gives. -/

namespace Sys2Proof.Machine

/-- A request that the link port lets be served answers the state of its service, with its reply in formation (R157). -/
theorem State.exec_of_served {s t : State} {c : Instr} {k : State → State × ReplyBody} {b : ReplyBody}
    (hexec : exec c s = s.request c k) (hserves : s.serves c) (hservice : k s = (t, b)) : exec c s = .next (t.answered c b) := by
  rw [hexec, State.request_serves k hserves, hservice]

theorem exec_reportDrop (n : Word16) (s : State) : exec (.reportDrop n) s = s.request (.reportDrop n) (State.reportDrop n) := rfl

theorem State.reportDrop_of_empty {s : State} (n : Word16) (h : s.report.queue = []) : s.reportDrop n = (s, refused .state) := by
  rw [State.reportDrop, h]

theorem State.reportDrop_of_other {s : State} {n : Word16} {r : LengthRecord} {rest : List LengthRecord}
    (h : s.report.queue = r :: rest) (hn : r.sequence ≠ n.toNat) : s.reportDrop n = (s, refused .sequence) := by
  rw [State.reportDrop, h]
  exact if_neg hn

theorem State.reportDrop_of_oldest {s : State} {n : Word16} {r : LengthRecord} {rest : List LengthRecord}
    (h : s.report.queue = r :: rest) (hn : r.sequence = n.toNat) :
    s.reportDrop n = (s.withReport { s.report with queue := rest }, okReply [byte rest.length]) := by
  rw [State.reportDrop, h]
  exact if_pos hn

/-- Settles O57, by the cases of R169: an empty queue, an oldest record of another sequence, the record named. -/
theorem reportDropFirstCaseThatApplies : Obligations.ReportDropFirstCaseThatApplies := by
  unfold Obligations.ReportDropFirstCaseThatApplies
  refine fun s n hserves => ⟨fun hempty => ?_, fun r rest hqueue hother => ?_, fun r rest hqueue holdest => ?_⟩
  · exact State.exec_of_served (exec_reportDrop n s) hserves (State.reportDrop_of_empty n hempty)
  · exact State.exec_of_served (exec_reportDrop n s) hserves (State.reportDrop_of_other hqueue hother)
  · exact State.exec_of_served (exec_reportDrop n s) hserves (State.reportDrop_of_oldest hqueue holdest)

/-- A byte above 1 is no yes-or-no value (R163). -/
theorem yesNoOf_of_two_le {b : Byte} (h : 2 ≤ b.toNat) : yesNoOf b = none := by
  have h0 : b ≠ 0 := by bv_omega
  have h1 : b ≠ 1 := by bv_omega
  rw [yesNoOf, if_neg h0, if_neg h1]

theorem yesNoOf_of_le_one {b : Byte} (h : b.toNat ≤ 1) : yesNoOf b = some (decide (b = 1)) := by
  obtain rfl | rfl : b = 0 ∨ b = 1 := by bv_omega
  · rfl
  · rfl

/-- A flag stands after the clear where it stood before and the mask does not set it (R173). -/
theorem ReportUnit.flags_clear (mask : Word16) (t : Bool) (r : ReportUnit) {b : Nat} (h : b < 11) :
    (r.clear mask t).flags.getLsbD b = (r.flags.getLsbD b && !mask.getLsbD b) := by
  simp [ReportUnit.clear, h]

theorem exec_clearFlags (mask : Word16) (tally : Byte) (s : State) :
    exec (.clearFlags mask tally) s = s.request (.clearFlags mask tally) (State.clearFlags mask tally) := rfl

theorem State.clearFlags_of_bad {s : State} {tally : Byte} (mask : Word16) (h : yesNoOf tally = none) :
    s.clearFlags mask tally = (s, refused .badValue) := by
  rw [State.clearFlags, h]

theorem State.clearFlags_of_selector {s : State} {tally : Byte} {t : Bool} (mask : Word16) (h : yesNoOf tally = some t) :
    s.clearFlags mask tally =
      (s.withReport (s.report.clear mask t), okReply (flagBytes (s.report.clear mask t).flags ++ tallyFields s.report.tally)) := by
  rw [State.clearFlags, h]

/-- Settles O58, by the selector: no yes-or-no value, or one of the two; the flags are those that the clear leaves. -/
theorem clearFlagsClearsWhatTheMaskNames : Obligations.ClearFlagsClearsWhatTheMaskNames := by
  unfold Obligations.ClearFlagsClearsWhatTheMaskNames
  refine fun s mask tally hserves => ⟨fun hbad => ?_, fun hselector => ?_⟩
  · exact State.exec_of_served (exec_clearFlags mask tally s) hserves (State.clearFlags_of_bad mask (yesNoOf_of_two_le hbad))
  · refine ⟨(s.report.clear mask (decide (tally = 1))).flags, fun b hb => ReportUnit.flags_clear mask _ s.report hb, ?_⟩
    rw [State.exec_of_served (exec_clearFlags mask tally s) hserves
      (State.clearFlags_of_selector mask (yesNoOf_of_le_one hselector))]
    simp only [State.withReport, ReportUnit.clear, decide_eq_true_eq, Tally.zero, okReply, flagBytes, tallyFields, List.append_assoc]

end Sys2Proof.Machine
end

section
/-! What each command does to the state of a part that takes it, in one function; every step is it, or leaves the part as it is. -/

namespace Sys2Proof.Machine

/-- What a command makes of a part that takes it, the reply of a request apart. -/
def effect (c : Instr) (s : State) : State :=
  match c with
  | .powerOn straps high => s.poweredOn straps high
  | .forwardCount ch => if s.runout.active = ch then s.advance ch (scaleOf s.store.card.line ch) else s
  | .reverseCount ch => if s.runout.active = ch then s.withRunout (s.runout.back ch (scaleOf s.store.card.line ch)) else s
  | .pullerSelectChange => s.withRunout s.runout.switch
  | .cutEdge micros => if micros < 100 then s else s.latchCut
  | .lostCutReport => s.takeLostCut
  | .takeCut => s.takeCut
  | .lineFrame bs => s.headFrame bs
  | .lineWaitExpiry i => s.expireSlot i
  | .strandEvaluation i => s.evaluateStrand i
  | .slotEvaluationEnd => s.endEvaluation
  | .scanEvent e => s.takeEvent (.scan e) (State.takeScan e)
  | .zoneOpenEvent e => s.takeEvent (.start e) (State.takeOpen e)
  | .zoneUpdateEvent e => s.takeEvent (.update e) (State.takeUpdate e)
  | .zoneCloseEvent e => s.takeEvent (.close e) (State.takeClose e)
  | .pyroSample i code => s.takeSample i code
  | .holdTimerExpiry i => s.expireHold i
  | .checkLimitExpiry => s.expireCheck
  | .bankStoreEnd found => s.endStore found
  | .watchdogExpiry => s.expireWatchdog
  | .frameGapTimeout => s.gap
  | .linkFrame bs => bs.foldl State.receive s
  | .replySent => s.sendReply
  | .status => s
  | .ident => s
  | .setHead head r => (s.setHead head r).1
  | .setCurve head points => (s.setCurve head points).1
  | .setFeature f r => (s.setFeature f r).1
  | .clearFeature f => (s.clearFeature f).1
  | .setLimits f r => (s.setLimits f r).1
  | .setThermal r => (s.setThermal r).1
  | .setLine r => (s.setLine r).1
  | .setIdentity die revision alloy strands => (s.setIdentity die revision alloy strands).1
  | .readCard _ _ => s
  | .bankLoad b => (s.bankLoad b).1
  | .bankStore b => (s.storing (s.store.storeBank b)).1
  | .bankLock b m => (s.storing (s.store.lockBank b m)).1
  | .bankInfo => s
  | .setBoot b => (s.setBoot b).1
  | .runStart => s.runStart.1
  | .billetJoin => s.billetJoin.1
  | .stop => s.stop.1
  | .resume => s.resume.1
  | .runEnd => s.runEnd.1
  | .runClose => s.runClose.1
  | .withdraw i => (s.withdraw i).1
  | .setTrigger m => (s.setTrigger m).1
  | .triggerOnce => s.triggerOnce.1
  | .headCheck mask exposure => (s.headCheck mask exposure).1
  | .headInfo => s.headInfo.1
  | .gaugeLatch mask => (s.gaugeLatch mask).1
  | .gaugeRead i => (s.gaugeRead i).1
  | .trackRead _ _ => s
  | .reportRead => s
  | .reportDrop n => (s.reportDrop n).1
  | .readCounters => s
  | .clearCounters => s.clearCounters.1
  | .clearFlags mask t => (s.clearFlags mask t).1
  | .setAlarmMask mask => (s.setAlarmMask mask).1
  | .setWatchdog n => (s.setWatchdog n).1
  | .forceFailsafe => s.withFailsafe .failsafe
  | .clearFailsafe => s.withFailsafe .normal
  | .restart => s
  | .supplyFailure landed => s.failed landed

/-- A command answers with the state as it was, with its effect, or with its effect and a reply in formation. -/
inductive Takes (c : Instr) (s : State) : State → Prop
  | idle : Takes c s s
  | event : Takes c s (effect c s)
  | served (b : ReplyBody) : Takes c s ((effect c s).answered c b)

/-- Every event but POWER_ON stands behind the gate of an event. -/
theorem exec_eq_event {c : Instr} (s : State) (hkind : kindOf c = none) (hc : ∀ straps high, c ≠ .powerOn straps high) :
    ∃ k : State → State, exec c s = s.event k ∧ k s = effect c s := by
  cases c
  case powerOn straps high => exact absurd rfl (hc straps high)
  all_goals cases hkind
  all_goals exact ⟨_, rfl, rfl⟩

/-- Every request stands behind the gate of a request. -/
theorem exec_eq_request {c : Instr} (s : State) {kind : Nat} (hkind : kindOf c = some kind) :
    ∃ k : State → State × ReplyBody, exec c s = s.request c k ∧ (k s).1 = effect c s := by
  cases c
  case forceFailsafe => exact ⟨fun s => (s.withFailsafe .failsafe, okReply [failsafeCode .failsafe]), rfl, rfl⟩
  case clearFailsafe => exact ⟨fun s => (s.withFailsafe .normal, okReply [failsafeCode .normal]), rfl, rfl⟩
  all_goals cases hkind
  all_goals exact ⟨_, rfl, rfl⟩

/-- Every command answers a next state: no arm of the dispatch stops the part. -/
theorem exec_takes (c : Instr) (s : State) : ∃ t, exec c s = .next t ∧ Takes c s t := by
  by_cases hpower : ∃ straps high, c = .powerOn straps high
  · obtain ⟨straps, high, rfl⟩ := hpower
    exact ⟨_, rfl, .event⟩
  cases hkind : kindOf c with
  | none =>
      obtain ⟨k, hexec, hk⟩ := exec_eq_event s hkind fun straps high hc => hpower ⟨straps, high, hc⟩
      obtain hstill | ⟨-, hdone⟩ := s.event_cases k
      · exact ⟨s, hexec.trans hstill, .idle⟩
      · exact ⟨effect c s, by rw [hexec, hdone, hk], .event⟩
  | some kind =>
      obtain ⟨k, hexec, hk⟩ := exec_eq_request s hkind
      obtain hstill | ⟨-, hserved⟩ := s.request_cases c k
      · exact ⟨s, hexec.trans hstill, .idle⟩
      · exact ⟨_, by rw [hexec, hserved, hk], .served (k s).2⟩

/-- Without supply only POWER_ON has an effect (log entry 13). -/
theorem exec_unpowered {c : Instr} {s : State} (h : s.powered = false) (hc : ∀ straps high, c ≠ .powerOn straps high) :
    exec c s = .next s := by
  cases hkind : kindOf c with
  | none =>
      obtain ⟨k, hexec, -⟩ := exec_eq_event s hkind hc
      rw [hexec, State.event_unpowered k h]
  | some kind =>
      obtain ⟨k, hexec, -⟩ := exec_eq_request s hkind
      rw [hexec, State.request_unpowered c k h]

/-- What holds of a state, whatever waits in its queue, holds after a step, if a millisecond, a reply in formation and the effect
of the front command keep it. -/
theorem step_keeps_of {P : State → Prop} {A : Instr → Prop} (hqueue : ∀ s q, P s → P { s with pending := q })
    (hpass : ∀ s, P s → P s.passMillisecond) (hreply : ∀ s c b, P s → P (s.answered c b))
    (heffect : ∀ c s, A c → P s → P (effect c s)) {s t : State} (hfront : ∀ c, s.pending.head? = some c → A c) (h : P s)
    (hstep : step s = .next t) : P t := by
  cases hq : s.pending with
  | nil =>
      simp only [step, hq, Host.Outcome.next.injEq] at hstep
      exact hstep ▸ hpass s h
  | cons c rest =>
      have hc : A c := hfront c (by simp [hq])
      obtain ⟨u, hu, htakes⟩ := exec_takes c { s with pending := rest }
      simp only [step, hq, hu, Host.Outcome.next.injEq] at hstep
      subst hstep
      have hrest := hqueue s rest h
      cases htakes with
      | idle => exact hrest
      | event => exact heffect c _ hc hrest
      | served b => exact hreply _ c b (heffect c _ hc hrest)

/-- The same where every command is taken. -/
theorem step_keeps {P : State → Prop} (hqueue : ∀ s q, P s → P { s with pending := q })
    (hpass : ∀ s, P s → P s.passMillisecond) (hreply : ∀ s c b, P s → P (s.answered c b))
    (heffect : ∀ c s, P s → P (effect c s)) (s t : State) (h : P s) (hstep : step s = .next t) : P t :=
  step_keeps_of (A := fun _ => True) hqueue hpass hreply (fun c s _ => heffect c s) (fun _ _ => trivial) h hstep

/-- Settles O1: the two arms of a step, the empty queue's with its millisecond and the driver. -/
theorem stepRunsFrontCommand : Obligations.StepRunsFrontCommand := by
  unfold Obligations.StepRunsFrontCommand
  refine ⟨fun c rest s => rfl, fun s hempty => ?_⟩
  simp only [step, hempty, State.passMillisecond, LinkPort.drive, State.withNow, State.withLink]

/-- Settles O3: the gates of events and requests without supply, and the two output lines. -/
theorem unpoweredPartStandsStill : Obligations.UnpoweredPartStandsStill := by
  unfold Obligations.UnpoweredPartStandsStill
  refine fun c s h => ⟨exec_unpowered h, ?_, fun i => ?_⟩
  · simp [State.alarmLine, h]
  · simp [State.rejectLine, h]

end Sys2Proof.Machine
end

section
/-! The frame of every command: the parts of the state that it may change, and that it leaves every other part. -/

namespace Sys2Proof.Machine

/-- The parts of the state. -/
inductive Part where
  | pending
  | powered
  | now
  | runout
  | scan
  | thermal
  | engine
  | tracker
  | verdict
  | report
  | store
  | link
deriving DecidableEq, Repr

/-- The two states hold the same in a part. -/
def State.agreesOn (s t : State) : Part → Prop
  | .pending => t.pending = s.pending
  | .powered => t.powered = s.powered
  | .now => t.now = s.now
  | .runout => t.runout = s.runout
  | .scan => t.scan = s.scan
  | .thermal => t.thermal = s.thermal
  | .engine => t.engine = s.engine
  | .tracker => t.tracker = s.tracker
  | .verdict => t.verdict = s.verdict
  | .report => t.report = s.report
  | .store => t.store = s.store
  | .link => t.link = s.link

/-- The parts that a command may change. -/
def touches : Instr → List Part
  | .powerOn _ _ => [.powered, .now, .runout, .scan, .thermal, .engine, .tracker, .verdict, .report, .store, .link]
  | .forwardCount _ => [.runout, .scan, .engine, .report]
  | .reverseCount _ => [.runout]
  | .pullerSelectChange => [.runout]
  | .cutEdge _ => [.runout, .tracker, .report]
  | .lostCutReport => [.tracker]
  | .takeCut => [.runout, .tracker, .verdict, .report, .store]
  | .lineFrame _ => [.scan, .engine, .report]
  | .lineWaitExpiry _ => [.now, .scan, .engine, .report]
  | .strandEvaluation _ => [.engine]
  | .slotEvaluationEnd => [.scan, .engine]
  | .scanEvent _ => [.engine, .tracker, .report]
  | .zoneOpenEvent _ => [.engine, .tracker, .report]
  | .zoneUpdateEvent _ => [.engine, .tracker]
  | .zoneCloseEvent _ => [.engine, .tracker, .report]
  | .pyroSample _ _ => [.thermal, .report]
  | .holdTimerExpiry _ => [.now, .thermal, .report]
  | .checkLimitExpiry => [.now, .scan, .report]
  | .bankStoreEnd _ => [.report, .store]
  | .watchdogExpiry => [.now, .verdict, .link]
  | .frameGapTimeout => [.report, .link]
  | .linkFrame _ => [.report, .link]
  | .replySent => [.runout, .scan, .thermal, .engine, .tracker, .verdict, .report, .store, .link]
  | .setHead _ _ => [.scan, .store]
  | .setCurve _ _ => [.store]
  | .setFeature _ _ => [.engine, .store]
  | .clearFeature _ => [.engine, .store]
  | .setLimits _ _ => [.store]
  | .setThermal _ => [.thermal, .store]
  | .setLine _ => [.runout, .store]
  | .setIdentity _ _ _ _ => [.tracker, .store]
  | .bankLoad _ => [.runout, .scan, .thermal, .engine, .tracker, .report, .store]
  | .bankStore _ => [.report, .store]
  | .bankLock _ _ => [.report, .store]
  | .setBoot _ => [.store]
  | .runStart => [.runout, .scan, .engine, .tracker, .report]
  | .billetJoin => [.tracker, .report]
  | .stop => [.tracker, .report]
  | .resume => [.tracker]
  | .runEnd => [.tracker]
  | .runClose => [.tracker, .verdict, .report, .store]
  | .withdraw _ => [.tracker, .verdict, .report, .store]
  | .setTrigger _ => [.runout]
  | .triggerOnce => [.scan, .engine]
  | .headCheck _ _ => [.scan, .report]
  | .headInfo => [.report]
  | .gaugeLatch _ => [.report]
  | .gaugeRead _ => [.report]
  | .reportDrop _ => [.report]
  | .clearCounters => [.report]
  | .clearFlags _ _ => [.report]
  | .setAlarmMask _ => [.report]
  | .setWatchdog _ => [.link]
  | .forceFailsafe => [.verdict]
  | .clearFailsafe => [.verdict]
  | .supplyFailure _ => [.powered, .store, .link]
  | .status => []
  | .ident => []
  | .readCard _ _ => []
  | .bankInfo => []
  | .trackRead _ _ => []
  | .reportRead => []
  | .readCounters => []
  | .restart => []

@[simp] theorem State.agreesOn_refl (s : State) (p : Part) : s.agreesOn s p := by cases p <;> rfl

@[simp] theorem State.agreesOn_ite {b : Prop} {_ : Decidable b} (s t u : State) (p : Part) :
    s.agreesOn (if b then t else u) p ↔ if b then s.agreesOn t p else s.agreesOn u p := by
  split <;> rfl

theorem State.agreesOn_trans {s t u : State} {p : Part} (h : s.agreesOn t p) (k : t.agreesOn u p) : s.agreesOn u p := by
  cases p <;> exact Eq.trans k h

/-- Steps over a list that each agree on a part agree on it together. -/
theorem State.agreesOn_foldl {α : Type} {f : State → α → State} {p : Part} (h : ∀ s x, State.agreesOn s (f s x) p) (xs : List α)
    (s : State) : s.agreesOn (xs.foldl f s) p := by
  induction xs generalizing s with
  | nil => exact s.agreesOn_refl p
  | cons x xs ih => exact State.agreesOn_trans (h s x) (ih (f s x))

@[simp] theorem State.agreesOn_withPowered {p : Part} (s t : State) (x : Bool) (hp : ¬ p = .powered) :
    s.agreesOn (t.withPowered x) p ↔ s.agreesOn t p := by
  cases p <;> simp [State.agreesOn] at hp ⊢

@[simp] theorem State.agreesOn_withNow {p : Part} (s t : State) (x : Nat) (hp : ¬ p = .now) :
    s.agreesOn (t.withNow x) p ↔ s.agreesOn t p := by
  cases p <;> simp [State.agreesOn] at hp ⊢

@[simp] theorem State.agreesOn_withRunout {p : Part} (s t : State) (x : TravelUnit) (hp : ¬ p = .runout) :
    s.agreesOn (t.withRunout x) p ↔ s.agreesOn t p := by
  cases p <;> simp [State.agreesOn] at hp ⊢

@[simp] theorem State.agreesOn_withScan {p : Part} (s t : State) (x : ScanAssembler) (hp : ¬ p = .scan) :
    s.agreesOn (t.withScan x) p ↔ s.agreesOn t p := by
  cases p <;> simp [State.agreesOn] at hp ⊢

@[simp] theorem State.agreesOn_withThermal {p : Part} (s t : State) (x : Vector ThermalRecord 4) (hp : ¬ p = .thermal) :
    s.agreesOn (t.withThermal x) p ↔ s.agreesOn t p := by
  cases p <;> simp [State.agreesOn] at hp ⊢

@[simp] theorem State.agreesOn_withEngine {p : Part} (s t : State) (x : SectionEngine) (hp : ¬ p = .engine) :
    s.agreesOn (t.withEngine x) p ↔ s.agreesOn t p := by
  cases p <;> simp [State.agreesOn] at hp ⊢

@[simp] theorem State.agreesOn_withTracker {p : Part} (s t : State) (x : Tracker) (hp : ¬ p = .tracker) :
    s.agreesOn (t.withTracker x) p ↔ s.agreesOn t p := by
  cases p <;> simp [State.agreesOn] at hp ⊢

@[simp] theorem State.agreesOn_withVerdict {p : Part} (s t : State) (x : VerdictUnit) (hp : ¬ p = .verdict) :
    s.agreesOn (t.withVerdict x) p ↔ s.agreesOn t p := by
  cases p <;> simp [State.agreesOn] at hp ⊢

@[simp] theorem State.agreesOn_withReport {p : Part} (s t : State) (x : ReportUnit) (hp : ¬ p = .report) :
    s.agreesOn (t.withReport x) p ↔ s.agreesOn t p := by
  cases p <;> simp [State.agreesOn] at hp ⊢

@[simp] theorem State.agreesOn_withStore {p : Part} (s t : State) (x : CardStore) (hp : ¬ p = .store) :
    s.agreesOn (t.withStore x) p ↔ s.agreesOn t p := by
  cases p <;> simp [State.agreesOn] at hp ⊢

@[simp] theorem State.agreesOn_withLink {p : Part} (s t : State) (x : LinkPort) (hp : ¬ p = .link) :
    s.agreesOn (t.withLink x) p ↔ s.agreesOn t p := by
  cases p <;> simp [State.agreesOn] at hp ⊢

@[simp] theorem State.agreesOn_handOver {p : Part} (s t : State) (i : Fin 4) (k : Slot) (h0 : ¬ p = .scan) (h1 : ¬ p = .engine) :
    s.agreesOn (t.handOver i k) p ↔ s.agreesOn t p := by
  simp [State.handOver, h0, h1]

@[simp] theorem State.agreesOn_tryHandOver {p : Part} (s t : State)  (h0 : ¬ p = .scan) (h1 : ¬ p = .engine) :
    s.agreesOn (t.tryHandOver) p ↔ s.agreesOn t p := by
  obtain h | ⟨j, k, -, -, h⟩ := t.tryHandOver_cases
  · rw [h]
  · rw [h, State.agreesOn_handOver s t j k h0 h1]

@[simp] theorem State.agreesOn_closeSlot {p : Part} (s t : State) (i : Fin 4) (k : Slot) (h0 : ¬ p = .scan) (h1 : ¬ p = .engine) :
    s.agreesOn (t.closeSlot i k) p ↔ s.agreesOn t p := by
  simp [State.closeSlot, h0, h1]

@[simp] theorem State.agreesOn_missHeads {p : Part} (s t : State) (k : Slot) (h0 : ¬ p = .scan) (h1 : ¬ p = .report) :
    s.agreesOn (t.missHeads k) p ↔ s.agreesOn t p := by
  simp [State.missHeads, h0, h1]

@[simp] theorem State.agreesOn_closeMissing {p : Part} (s t : State) (i : Fin 4) (k : Slot) (h0 : ¬ p = .scan) (h1 : ¬ p = .engine) (h2 : ¬ p = .report) :
    s.agreesOn (t.closeMissing i k) p ↔ s.agreesOn t p := by
  simp [State.closeMissing, h0, h1, h2]

@[simp] theorem State.agreesOn_forceClose {p : Part} (s t : State)  (h0 : ¬ p = .scan) (h1 : ¬ p = .engine) (h2 : ¬ p = .report) :
    s.agreesOn (t.forceClose) p ↔ s.agreesOn t p := by
  unfold State.forceClose
  repeat' split
  all_goals simp [h0, h1, h2]

@[simp] theorem State.agreesOn_takeSlot {p : Part} (s t : State) (i : Fin 4) (manual : Bool) (travel : Nat) (h0 : ¬ p = .scan) (h1 : ¬ p = .engine) :
    s.agreesOn (t.takeSlot i manual travel) p ↔ s.agreesOn t p := by
  simp [State.takeSlot, h0, h1]

@[simp] theorem State.agreesOn_skipTrigger {p : Part} (s t : State) (travel : Nat) (h0 : ¬ p = .scan) (h1 : ¬ p = .engine) (h2 : ¬ p = .report) :
    s.agreesOn (t.skipTrigger travel) p ↔ s.agreesOn t p := by
  simp [State.skipTrigger, h0, h1, h2]

@[simp] theorem State.agreesOn_distanceTrigger {p : Part} (s t : State) (travel : Nat) (h0 : ¬ p = .scan) (h1 : ¬ p = .engine) (h2 : ¬ p = .report) :
    s.agreesOn (t.distanceTrigger travel) p ↔ s.agreesOn t p := by
  unfold State.distanceTrigger
  repeat' split
  all_goals simp [h0, h1, h2]

@[simp] theorem State.agreesOn_crossPitch {p : Part} (s t : State)  (h0 : ¬ p = .runout) (h1 : ¬ p = .scan) (h2 : ¬ p = .engine) (h3 : ¬ p = .report) :
    s.agreesOn (t.crossPitch) p ↔ s.agreesOn t p := by
  simp [State.crossPitch, h0, h1, h2, h3]

@[simp] theorem State.agreesOn_crossings {p : Part} (s t : State) (n : Nat) (h0 : ¬ p = .runout) (h1 : ¬ p = .scan) (h2 : ¬ p = .engine) (h3 : ¬ p = .report) :
    s.agreesOn (State.crossings n t) p ↔ s.agreesOn t p := by
  induction n generalizing t with
  | zero => rfl
  | succ n ih =>
      unfold State.crossings
      split
      · rw [ih, State.agreesOn_crossPitch s t h0 h1 h2 h3]
      · rfl

@[simp] theorem State.agreesOn_growTravel {p : Part} (s t : State) (d : Nat) (h0 : ¬ p = .runout) (h1 : ¬ p = .scan) (h2 : ¬ p = .engine) (h3 : ¬ p = .report) :
    s.agreesOn (t.growTravel d) p ↔ s.agreesOn t p := by
  simp [State.growTravel, h0, h1, h2, h3]

@[simp] theorem State.agreesOn_withStrand {p : Part} (s t : State) (i : Fin 4) (st : Strand) (h0 : ¬ p = .tracker) :
    s.agreesOn (t.withStrand i st) p ↔ s.agreesOn t p := by
  simp [State.withStrand, h0]

@[simp] theorem State.agreesOn_withTracked {p : Part} (s t : State) (i : Fin 4) (x : Tracked) (h0 : ¬ p = .tracker) (h1 : ¬ p = .report) :
    s.agreesOn (t.withTracked i x) p ↔ s.agreesOn t p := by
  simp [State.withTracked, h0, h1]

@[simp] theorem State.agreesOn_formLength {p : Part} (s t : State) (o : Origin) (i : Fin 4) (u : Int) (h0 : ¬ p = .tracker) (h1 : ¬ p = .verdict) (h2 : ¬ p = .report) :
    s.agreesOn (t.formLength o i u) p ↔ s.agreesOn t p := by
  simp [State.formLength, h0, h1, h2]

@[simp] theorem State.agreesOn_finalLength {p : Part} (s t : State) (o : Origin) (i : Fin 4) (u : Int) (h0 : ¬ p = .tracker) (h1 : ¬ p = .verdict) (h2 : ¬ p = .report) :
    s.agreesOn (t.finalLength o i u) p ↔ s.agreesOn t p := by
  simp [State.finalLength, h0, h1, h2]

@[simp] theorem State.agreesOn_returnToIdle {p : Part} (s t : State)  (h0 : ¬ p = .tracker) (h1 : ¬ p = .store) :
    s.agreesOn (t.returnToIdle) p ↔ s.agreesOn t p := by
  simp [State.returnToIdle, h0, h1]

@[simp] theorem State.agreesOn_endStrand {p : Part} (s t : State) (i : Fin 4) (h0 : ¬ p = .tracker) (h1 : ¬ p = .store) :
    s.agreesOn (t.endStrand i) p ↔ s.agreesOn t p := by
  simp [State.endStrand, h0, h1]

@[simp] theorem State.agreesOn_cutStrand {p : Part} (s t : State) (c : Int) (i : Fin 4) (h0 : ¬ p = .tracker) (h1 : ¬ p = .verdict) (h2 : ¬ p = .report) (h3 : ¬ p = .store) :
    s.agreesOn (t.cutStrand c i) p ↔ s.agreesOn t p := by
  simp [State.cutStrand, h0, h1, h2, h3]

@[simp] theorem State.agreesOn_edit {p : Part} (s t : State) (c : Card) (h0 : ¬ p = .store) :
    s.agreesOn (t.edit c) p ↔ s.agreesOn t p := by
  simp [State.edit, h0]

@[simp] theorem State.agreesOn_takeThermal {p : Part} (s t : State) (x : ThermalSection) (h0 : ¬ p = .thermal) :
    s.agreesOn (t.takeThermal x) p ↔ s.agreesOn t p := by
  simp [State.takeThermal, h0]

@[simp] theorem State.agreesOn_reach {p : Part} (s t : State) (d : Nat) (h0 : ¬ p = .now) :
    s.agreesOn (t.reach d) p ↔ s.agreesOn t p := by
  simp [State.reach, h0]

/-- An event taken from the outbox agrees with what the event itself leaves, the engine apart. -/
theorem State.agreesOn_takeEvent {p : Part} (s : State) (e : TrackerEvent) (k : State → State) (hp : ¬ p = .engine)
    (hk : ∀ t, State.agreesOn t (k t) p) : s.agreesOn (s.takeEvent e k) p := by
  obtain h | ⟨-, h⟩ := s.takeEvent_cases e k
  · rw [h]
    exact s.agreesOn_refl p
  · rw [h]
    exact State.agreesOn_trans (t := s.received) ((s.agreesOn_withEngine s _ hp).mpr (s.agreesOn_refl p)) (hk _)

@[simp] theorem State.agreesOn_acceptLine {p : Part} (s t : State) (i : Fin 4) (k : Slot) (l : Line) (hs : ¬ p = .scan)
    (he : ¬ p = .engine) (hr : ¬ p = .report) : s.agreesOn (t.acceptLine i k l) p ↔ s.agreesOn t p := by
  simp [State.acceptLine, hs, he, hr]

@[simp] theorem State.agreesOn_triggerLine {p : Part} (s t : State) (n : Nat) (l : Line) (hs : ¬ p = .scan)
    (he : ¬ p = .engine) (hr : ¬ p = .report) : s.agreesOn (t.triggerLine n l) p ↔ s.agreesOn t p := by
  unfold State.triggerLine
  repeat' split
  all_goals simp [hs, he, hr]

@[simp] theorem State.agreesOn_completeCheck {p : Part} (s t : State) (hs : ¬ p = .scan) (hr : ¬ p = .report) :
    s.agreesOn t.completeCheck p ↔ s.agreesOn t p := by
  simp [State.completeCheck, hs, hr]

@[simp] theorem State.agreesOn_checkLine {p : Part} (s t : State) (l : Line) (hs : ¬ p = .scan) (hr : ¬ p = .report) :
    s.agreesOn (t.checkLine l) p ↔ s.agreesOn t p := by
  unfold State.checkLine
  split
  · simp [hr]
  · simp only [State.agreesOn_ite]
    repeat' split
    all_goals simp [hs, hr]

@[simp] theorem State.agreesOn_headFrame {p : Part} (s t : State) (bs : List Byte) (hs : ¬ p = .scan) (he : ¬ p = .engine)
    (hr : ¬ p = .report) : s.agreesOn (t.headFrame bs) p ↔ s.agreesOn t p := by
  unfold State.headFrame State.takeLine
  repeat' split
  all_goals simp [hs, he, hr]

@[simp] theorem State.agreesOn_takeFrame {p : Part} (s t : State) (kind : Byte) (payload : List Byte) (hl : ¬ p = .link)
    (hr : ¬ p = .report) : s.agreesOn (t.takeFrame kind payload) p ↔ s.agreesOn t p := by
  simp [State.takeFrame, hl, hr]

/-- A byte of the link changes the link port and the report unit alone. -/
theorem State.agreesOn_receive {p : Part} (s : State) (b : Byte) (hl : ¬ p = .link) (hr : ¬ p = .report) :
    s.agreesOn (s.receive b) p := by
  simp only [State.receive, State.withReceiver, State.judged]
  repeat' split
  all_goals simp [hl, hr]

@[simp] theorem State.agreesOn_closeStrand {p : Part} (s t : State) (o : Origin) (h : Int) (i : Fin 4) (ht : ¬ p = .tracker)
    (hv : ¬ p = .verdict) (hr : ¬ p = .report) : s.agreesOn (t.closeStrand o h i) p ↔ s.agreesOn t p := by
  simp [State.closeStrand, ht, hv, hr]

@[simp] theorem State.agreesOn_eachStrand {p : Part} (s t : State) (f : Strand → Tracked) (ht : ¬ p = .tracker)
    (hr : ¬ p = .report) : s.agreesOn (t.eachStrand f) p ↔ s.agreesOn t p := by
  simp [State.eachStrand, ht, hr]

@[simp] theorem State.agreesOn_takeCut {p : Part} (s t : State) (hu : ¬ p = .runout) (ht : ¬ p = .tracker)
    (hv : ¬ p = .verdict) (hr : ¬ p = .report) (hs : ¬ p = .store) : s.agreesOn t.takeCut p ↔ s.agreesOn t p := by
  unfold State.takeCut
  split
  · rfl
  · simp [State.leaveCut, State.cutStrands, State.takeDueReports, State.applyPending, hu, ht, hv, hr, hs]

theorem State.agreesOn_sendReply {p : Part} (s : State) (h : p ∉ touches .replySent) : s.agreesOn s.sendReply p := by
  obtain rfl | rfl | rfl : p = .pending ∨ p = .powered ∨ p = .now := by cases p <;> simp [touches] at h ⊢
  all_goals
    unfold State.sendReply
    split
  all_goals simp [State.agreesOn, State.restarted, apply_ite]

/-- The frame of every command: it leaves the parts that it does not touch. -/
theorem effect_frame (c : Instr) (s : State) {p : Part} (hp : p ∉ touches c) : s.agreesOn (effect c s) p := by
  cases c
  case powerOn straps high => cases p <;> simp [touches, State.agreesOn, effect, State.poweredOn] at hp ⊢
  case replySent => exact s.agreesOn_sendReply hp
  all_goals simp only [touches, List.mem_cons, List.not_mem_nil, or_false, not_or] at hp
  case scanEvent e => exact s.agreesOn_takeEvent _ _ hp.1 fun t => by simp [State.takeScan, hp]
  case zoneOpenEvent e => exact s.agreesOn_takeEvent _ _ hp.1 fun t => by simp [State.takeOpen, hp]
  case zoneUpdateEvent e => exact s.agreesOn_takeEvent _ _ hp.1 fun t => by simp [State.takeUpdate, hp]
  case zoneCloseEvent e => exact s.agreesOn_takeEvent _ _ hp.1 fun t => by simp [State.takeClose, hp]
  case lineFrame bs => simp [effect, hp]
  case linkFrame bs => exact State.agreesOn_foldl (fun t b => t.agreesOn_receive b hp.2 hp.1) bs s
  all_goals simp only [effect, State.advance, State.latchCut, State.takeLostCut, State.setHead, State.setCurve, State.setFeature,
    State.clearFeature, State.setLimits, State.setThermal, State.setLine, State.setIdentity, State.bankLoad, State.loadBank, State.storing, State.setBoot,
    State.runStart, State.billetJoin, State.stop, State.resume, State.runEnd, State.runClose, State.withdraw, State.setTrigger,
    State.triggerOnce, State.headCheck, State.headInfo, State.gaugeLatch, State.gaugeRead, State.reportDrop, State.clearCounters,
    State.clearFlags, State.setAlarmMask, State.setWatchdog, State.withFailsafe, State.failed, State.expireSlot, State.evaluateStrand,
    State.endEvaluation, State.takeSample, State.fallBack, State.withThermalAt, State.expireHold, State.expireCheck, State.completeCheck, State.endStore,
    State.expireWatchdog, State.gap, State.withReceiver, pressReply, editReply, State.putHead, State.putFeature, State.putLimits,
    State.putThermal, State.putLine, State.putIdentity, State.beginRun, State.withPress]
  all_goals repeat' split
  all_goals simp [hp]
end Sys2Proof.Machine
end

section
/-! What a command can do to the card store, and the invariants of the cards, the digests and the banks (R134 to R150). -/

namespace Sys2Proof.Machine

/-- Settles O2: every command answers, and the queue is a part that none touches. -/
theorem everyCommandAnswersAndLeavesTheQueue : Obligations.EveryCommandAnswersAndLeavesTheQueue := by
  unfold Obligations.EveryCommandAnswersAndLeavesTheQueue
  intro c s
  obtain ⟨t, hexec, htakes⟩ := exec_takes c s
  have hframe : s.agreesOn (effect c s) .pending := effect_frame c s (by cases c <;> simp [touches])
  refine ⟨t, hexec, ?_⟩
  cases htakes with
  | idle => rfl
  | event => exact hframe
  | served b => exact hframe

/-! ### The ranges of a card under an edit -/

/-- The entry at a place after one is put in. -/
@[simp] theorem getElem_setAt {α : Type} {n : Nat} (v : Vector α n) (i : Fin n) (x : α) (j : Nat) (hj : j < n) :
    (setAt v i x)[j] = if i.val = j then x else v[j] := Vector.getElem_set i.isLt hj

theorem mem_toList_setAt {α : Type} {n : Nat} {v : Vector α n} {i : Fin n} {x y : α} (h : y ∈ (setAt v i x).toList) :
    y ∈ v.toList ∨ y = x := by
  rw [setAt, Vector.toList_set] at h
  exact List.mem_or_eq_of_mem_set h

/-- What holds of every entry of a vector and of a new one holds of every entry after it is put in. -/
theorem all_setAt {α : Type} {n : Nat} {p : α → Bool} {v : Vector α n} (i : Fin n) {x : α} (h : v.toList.all p = true)
    (hx : p x = true) : (setAt v i x).toList.all p = true := by
  rw [List.all_eq_true] at h ⊢
  intro y hy
  obtain hv | rfl := mem_toList_setAt hy
  · exact h y hv
  · exact hx

/-- A present feature is trended. -/
def trendedAt : Option Feature → Bool
  | some f => f.trended
  | none => false

/-- The trended features are counted index by index. -/
theorem trendedCount_eq (c : Card) : c.trendedCount = featuresInOrder.countP fun j => trendedAt c.features[j] := by
  have hlist : c.features.toList = featuresInOrder.map fun j => c.features[j] := by
    apply List.ext_getElem <;> simp
  rw [Card.trendedCount, hlist, List.countP_map]
  rfl

theorem trendedOthers_eq (c : Card) (i : Fin 32) :
    trendedOthers c i = featuresInOrder.countP fun j => j != i && trendedAt c.features[j] := rfl

/-- At most one index is a given one. -/
theorem countP_index_le (i : Fin 32) (p : Fin 32 → Bool) :
    (featuresInOrder.countP fun j => j == i && p j) ≤ if p i then 1 else 0 := by
  split
  · calc _ ≤ featuresInOrder.countP (· == i) := List.countP_mono_left fun j _ hj => by simp at hj ⊢; exact hj.1
      _ ≤ 1 := List.nodup_iff_count.mp (List.nodup_finRange 32) i
  · next h =>
    refine Nat.le_of_eq (List.countP_eq_zero.mpr fun j _ hj => h ?_)
    simp only [Bool.and_eq_true, beq_iff_eq] at hj
    exact hj.1 ▸ hj.2

/-- A feature put at an index leaves the trended features elsewhere (R70 case 7). -/
theorem trendedCount_setAt (c : Card) (i : Fin 32) (f : Option Feature) :
    ({ c with features := setAt c.features i f } : Card).trendedCount ≤ trendedOthers c i + if trendedAt f then 1 else 0 := by
  rw [trendedCount_eq, List.countP_eq_countP_filter_add _ _ (· != i), List.countP_filter, List.countP_filter]
  refine Nat.add_le_add (Nat.le_of_eq ?_) (Std.le_trans (Nat.le_of_eq ?_) (countP_index_le i fun _ => trendedAt f))
  · rw [trendedOthers_eq]
    refine List.countP_congr fun j _ => ?_
    obtain rfl | (hj : i ≠ j) := Decidable.em (i = j)
    · simp
    · simp [hj, hj.symm, Fin.val_ne_of_ne]
  · refine List.countP_congr fun j _ => ?_
    obtain rfl | (hj : i ≠ j) := Decidable.em (i = j)
    · simp
    · simp [hj, hj.symm, Fin.val_ne_of_ne]

/-- No head of a card shares strand and position with another where both are enabled (R2). -/
theorem headsApart_iff (c : Card) : c.headsApart = true ↔ ∀ i j : Fin 8, i ≠ j →
    ¬(c.heads[i].enabled = true ∧ c.heads[j].enabled = true ∧ c.heads[i].strand = c.heads[j].strand
      ∧ c.heads[i].position = c.heads[j].position) := by
  have hall : ∀ h : Fin 8, h ∈ headsInOrder := by decide
  simp only [Card.headsApart, List.all_eq_true]
  constructor
  · intro h i j hij
    simpa [hij, ← or_assoc, Decidable.imp_iff_not_or] using h i (hall i) j (hall j)
  · intro h i _ j _
    obtain rfl | (hij : i ≠ j) := Decidable.em (i = j)
    · simp
    · simpa [hij, ← or_assoc, Decidable.imp_iff_not_or] using h i j hij

/-- An enabled record at a place that no other head takes (R3 case 5). -/
theorem placeTaken_iff (c : Card) (i : Fin 8) (h : HeadRecord) : placeTaken c i h = true ↔ h.enabled = true ∧
    ∃ j : Fin 8, j ≠ i ∧ c.heads[j].enabled = true ∧ c.heads[j].strand = h.strand ∧ c.heads[j].position = h.position := by
  have hall : ∀ h : Fin 8, h ∈ headsInOrder := by decide
  simp only [placeTaken, Bool.and_eq_true, List.any_eq_true, bne_iff_ne, beq_iff_eq, hall, true_and, and_assoc]

theorem headsApart_setAt {c : Card} (i : Fin 8) {h : HeadRecord} (hc : c.headsApart = true) (hp : placeTaken c i h = false) :
    ({ c with heads := setAt c.heads i h } : Card).headsApart = true := by
  rw [headsApart_iff] at hc ⊢
  have hfree : ¬ _ := fun htaken => Bool.eq_false_iff.mp hp ((placeTaken_iff c i h).mpr htaken)
  intro j k hjk hboth
  obtain ⟨hj, hk, hstrand, hposition⟩ := hboth
  obtain rfl | (hij : i ≠ j) := Decidable.em (i = j)
  · simp [hjk, Fin.val_ne_of_ne] at hj hk hstrand hposition
    exact hfree ⟨hj, k, hjk.symm, hk, hstrand.symm, hposition.symm⟩
  · obtain rfl | (hik : i ≠ k) := Decidable.em (i = k)
    · simp [hij, Fin.val_ne_of_ne] at hj hk hstrand hposition
      exact hfree ⟨hk, j, hjk, hj, hstrand, hposition⟩
    · simp [hij, hik, Fin.val_ne_of_ne] at hj hk hstrand hposition
      exact hc j k hjk ⟨hj, hk, hstrand, hposition⟩

/-- A feature record of a card, where one is present, keeps to its ranges. -/
def featureHolds : Option Feature → Bool
  | some f => f.inRange
  | none => true

/-- The ranges of a card, section by section. -/
structure CardRanges (c : Card) : Prop where
  identity : c.die ≤ 4294967295 ∧ c.revision ≤ 65535 ∧ c.alloy ≤ 255 ∧ c.strands ≤ 4
  heads    : c.heads.toList.all HeadRecord.inRange = true
  apart    : c.headsApart = true
  curves   : c.curves.toList.all (fun v => v.toList.all curvePointInRange) = true
  features : c.features.toList.all featureHolds = true
  trended  : c.trendedCount ≤ 8
  thermal  : c.thermal.inRange = true
  line     : c.line.inRange = true

theorem cardInRange_iff (c : Card) : c.inRange = true ↔ CardRanges c := by
  simp only [Card.inRange, Bool.and_eq_true, decide_eq_true_eq]
  constructor
  · rintro ⟨⟨⟨⟨⟨⟨⟨⟨⟨⟨hd, hr⟩, ha⟩, hs⟩, hheads⟩, hapart⟩, hcurves⟩, hfeatures⟩, htrended⟩, hthermal⟩, hline⟩
    exact ⟨⟨hd, hr, ha, hs⟩, hheads, hapart, hcurves, hfeatures, htrended, hthermal, hline⟩
  · rintro ⟨⟨hd, hr, ha, hs⟩, hheads, hapart, hcurves, hfeatures, htrended, hthermal, hline⟩
    exact ⟨⟨⟨⟨⟨⟨⟨⟨⟨⟨hd, hr⟩, ha⟩, hs⟩, hheads⟩, hapart⟩, hcurves⟩, hfeatures⟩, htrended⟩, hthermal⟩, hline⟩

/-- What a card's features, taken one at its index, keep to. -/
theorem CardRanges.feature {c : Card} (h : CardRanges c) {i : Fin 32} {f : Feature} (hf : c.features[i] = some f) :
    f.inRange = true := by
  have := List.all_eq_true.mp h.features (c.features[i]) (by simp)
  rwa [hf] at this

theorem CardRanges.setHead {c : Card} (hc : CardRanges c) (i : Fin 8) {h : HeadRecord} (hr : h.inRange = true)
    (hp : placeTaken c i h = false) : CardRanges { c with heads := setAt c.heads i h } :=
  { hc with heads := all_setAt i hc.heads hr, apart := headsApart_setAt i hc.apart hp }

theorem CardRanges.setCurve {c : Card} (hc : CardRanges c) (i : Fin 8) {v : Vector Int 17} (hv : v.toList.all curvePointInRange = true) :
    CardRanges { c with curves := setAt c.curves i v } :=
  { hc with curves := all_setAt i hc.curves hv }

theorem CardRanges.withFeatures {c : Card} (hc : CardRanges c) {fs : Vector (Option Feature) 32}
    (hfs : fs.toList.all featureHolds = true) (ht : ({ c with features := fs } : Card).trendedCount ≤ 8) :
    CardRanges { c with features := fs } :=
  { hc with features := hfs, trended := ht }

theorem CardRanges.setFeature {c : Card} (hc : CardRanges c) (i : Fin 32) {f : Option Feature} (hf : ∀ x, f = some x → x.inRange = true)
    (ht : trendedAt f = true → trendedOthers c i < 8) : CardRanges { c with features := setAt c.features i f } := by
  have hothers : trendedOthers c i ≤ 8 := by
    refine Std.le_trans ?_ hc.trended
    rw [trendedCount_eq]
    exact List.countP_mono_left fun j _ hj => by simp only [Bool.and_eq_true] at hj; exact hj.2
  refine hc.withFeatures (all_setAt i hc.features ?_) (Nat.le_trans (trendedCount_setAt c i f) ?_)
  · cases f with
    | none => rfl
    | some x => exact hf x rfl
  · split
    · next h => exact ht h
    · exact hothers

/-- What a command can make of a card store: nothing, or one of the memory's operations after another. An edit of the working card
keeps it in its ranges where the pending limits are in theirs, and only SET_HEAD and SET_THERMAL edit a head or the thermal section. -/
inductive CardStore.Change (c : Instr) : CardStore → CardStore → Prop
  | same (x) : Change c x x
  | edit (x : CardStore) (card : Card) (h : x.card.inRange = true → x.pendingInRange → card.inRange = true)
      (hheads : card.heads = x.card.heads ∨ ∃ head r, c = .setHead head r)
      (hthermal : card.thermal = x.card.thermal ∨ ∃ r, c = .setThermal r) : Change c x (x.edit card)
  | defer (x : CardStore) (i : Fin 32) (l : Limits) (h : l.inRange = true) (hc : ∃ f r, c = .setLimits f r) :
      Change c x (x.defer i l)
  | dropPending (x : CardStore) : Change c x x.dropPending
  | resume (x : CardStore) : Change c x x.resume
  | load (x : CardStore) (i : Fin 8) (h : x.banks[i].valid = true) (k : x.banks[i].intact = true) (hc : ∃ b, c = .bankLoad b) :
      Change c x { x with card := x.banks[i].content.asCard, digest := x.banks[i].digest, pendingLimits := Vector.replicate 32 none }
  | start (x : CardStore) (i : Fin 8) (h : x.engine = .idle) : Change c x (x.startStore i)
  | lock (x : CardStore) (i : Fin 8) (l : Lock) : Change c x (x.putBank i { x.banks[i] with lock := l })
  | boot (x : CardStore) (b : Option (Fin 8)) : Change c x { x with boot := b }
  | ended (x : CardStore) (j : StoreJob) (found : StoreRead) (h : x.engine = .storing j) (hc : c = .bankStoreEnd found) :
      Change c x (x.endStore j found)
  | lost (x : CardStore) : Change c x { x with engine := .idle }
  | powerOn (x : CardStore) (hc : ∃ straps high, c = .powerOn straps high) : Change c x x.powerOn
  | next {x y z : CardStore} (h : Change c x y) (k : Change c y z) : Change c x z

@[simp] theorem CardStore.banks_resume (x : CardStore) : x.resume.banks = x.banks := by
  unfold CardStore.resume
  split <;> rfl

@[simp] theorem CardStore.card_resume (x : CardStore) : x.resume.card = x.card := by
  unfold CardStore.resume
  split <;> rfl

@[simp] theorem CardStore.pendingLimits_resume (x : CardStore) : x.resume.pendingLimits = x.pendingLimits := by
  unfold CardStore.resume
  split <;> rfl

@[simp] theorem CardStore.digest_resume (x : CardStore) : x.resume.digest = x.digest := by
  unfold CardStore.resume
  split <;> rfl

namespace CardStore.Change

variable {c : Instr}

theorem of_eq {x y : CardStore} (h : y = x) : Change c x y := h.symm ▸ same x

theorem storeBank (x : CardStore) (b : Byte) : Change c x (x.storeBank b).1 := by
  unfold CardStore.storeBank
  split
  · exact same x
  · split
    · exact same x
    · split
      · exact same x
      · next h => exact start x _ (Decidable.not_not.mp h)

/-- A lock written, a store in flight being suspended for it where it is to be FIXED (R148, R149). -/
theorem setLock (x : CardStore) (i : Fin 8) (l : Lock) : Change c x (x.setLock i l) := by
  simp only [CardStore.setLock]
  split
  · rw [CardStore.suspending_lock, ← CardStore.banks_resume]
    exact next (resume x) (lock _ i l)
  · exact lock x i l

theorem lockBank (x : CardStore) (b m : Byte) : Change c x (x.lockBank b m).1 := by
  unfold CardStore.lockBank
  split
  · split
    · exact same x
    · split
      · exact same x
      · exact setLock x _ _
  · exact same x

theorem chooseBoot (x : CardStore) (b : Byte) : Change c x (x.chooseBoot b).1 := by
  unfold CardStore.chooseBoot
  split
  · exact same x
  · rw [CardStore.suspending_boot]
    exact next (resume x) (boot _ _)

theorem land (x : CardStore) (v : Option Service) : Change c x (x.land v) := by
  unfold CardStore.land
  split
  · exact storeBank x _
  · split
    · exact lockBank x _ _
    · exact same x
  · exact chooseBoot x _
  · exact same x

end CardStore.Change

end Sys2Proof.Machine
end

section
/-! The fields that the editing requests carry lie in the ranges of a card where they are taken (R3, R4, R62, R70, R73, R135, R137). -/

namespace Sys2Proof.Machine

theorem checked_eq_some {α : Type} {ok : α → Bool} {a b : α} (h : checked ok a = some b) : a = b ∧ ok b = true := by
  unfold checked at h
  split at h
  · next hok => cases h; exact ⟨rfl, hok⟩
  · cases h

theorem headRecordOf_inRange {r : RawHead} {h : HeadRecord} (hr : headRecordOf r = some h) : h.inRange = true := by
  unfold headRecordOf at hr
  split at hr
  · exact (checked_eq_some hr).2
  · cases hr

theorem curveOf_inRange {points : List Word32} {v : Vector Int 17} (h : curveOf points = some v) :
    v.toList.all curvePointInRange = true := by
  unfold curveOf at h
  split at h
  · next hpoints =>
    obtain ⟨hlength, hall⟩ := hpoints
    cases h
    rw [List.all_eq_true] at hall ⊢
    intro p hp
    obtain ⟨i, hi, rfl⟩ := List.getElem_of_mem hp
    have hlt : i < points.length := by simpa [hlength] using hi
    simpa [List.getElem?_eq_getElem hlt] using hall points[i] (List.getElem_mem hlt)
  · cases h

theorem clamp_mem {low high : Nat} (n : Nat) (h : low ≤ high) : low ≤ clamp low high n ∧ clamp low high n ≤ high := by
  unfold clamp
  omega

theorem limitsOf_inRange {r : RawLimits} {l : Limits} {b : Bool} (h : limitsOf r = some (l, b)) : l.inRange = true := by
  unfold limitsOf at h
  split at h
  · cases h
  · simp only [Option.ite_none_right_eq_some, Option.some.injEq, Prod.mk.injEq] at h
    obtain ⟨htolerances, rfl, -⟩ := h
    simp only [Limits.inRange, htolerances, clamp_mem _ (show 1 ≤ 15 by decide), and_self, decide_true, Bool.and_self]

theorem windowOf_inRange {first last : Word16} {w : Window} {b : Bool} (h : windowOf first last = some (w, b)) : w.inRange = true := by
  simp only [windowOf, Option.ite_none_right_eq_some, Option.some.injEq, Prod.mk.injEq] at h
  obtain ⟨hle, rfl, -⟩ := h
  simp only [Window.inRange, hle, true_and, decide_eq_true_eq]
  exact Nat.min_le_right _ _

/-- Position B is there exactly for a GAP, at a position other than position A and with its window in range (R70). -/
theorem placeBOf_eq_some {kind : FeatureKind} {posA : Fin 4} {r : RawFeature} {o : Option Place} {b : Bool}
    (h : placeBOf kind posA r = some (o, b)) :
    (o = none ∧ kind ≠ .gap) ∨ ∃ p, o = some p ∧ kind = .gap ∧ p.position ≠ posA ∧ p.window.inRange = true := by
  unfold placeBOf at h
  split at h
  · split at h
    · next hw =>
      simp only [Option.ite_none_left_eq_some, Option.some.injEq, Prod.mk.injEq] at h
      obtain ⟨hne, rfl, -⟩ := h
      exact .inr ⟨_, rfl, rfl, hne, windowOf_inRange hw⟩
    · cases h
  all_goals
    cases h
    exact .inl ⟨rfl, by decide⟩

theorem featureOf_inRange {r : RawFeature} {f : Feature} {b : Bool} (h : featureOf r = some (f, b)) : f.inRange = true := by
  unfold featureOf at h
  split at h
  · next hw _ hl =>
    split at h
    · next hplace =>
      simp only [Option.ite_none_right_eq_some, Option.some.injEq, Prod.mk.injEq] at h
      obtain ⟨hpoints, rfl, -⟩ := h
      have hid : r.featureId.toNat ≤ 65535 := Nat.le_of_lt_succ r.featureId.isLt
      obtain ⟨rfl, hkind⟩ | ⟨p, rfl, hkind, hne, hwin⟩ := placeBOf_eq_some hplace
      · simp [Feature.inRange, hid, windowOf_inRange hw, hpoints, limitsOf_inRange hl, hkind]
      · simp [Feature.inRange, hid, windowOf_inRange hw, hpoints, limitsOf_inRange hl, hkind, hne, hwin]
    · cases h
  · cases h

theorem thermalOf_inRange {r : RawThermal} {t : ThermalSection} {b : Bool} (h : thermalOf r = some (t, b)) : t.inRange = true := by
  simp only [thermalOf, Option.ite_none_right_eq_some, Option.some.injEq, Prod.mk.injEq, Bool.and_eq_true] at h
  obtain ⟨⟨-, hrange⟩, rfl, -⟩ := h
  exact hrange

theorem lineOf_inRange {r : RawLine} {l : LineSection} {b : Bool} (h : lineOf r = some (l, b)) : l.inRange = true := by
  unfold lineOf at h
  split at h
  · simp only [Option.ite_none_right_eq_some, Option.some.injEq, Prod.mk.injEq] at h
    obtain ⟨hrange, rfl, -⟩ := h
    have hpitch := clamp_mem r.scanPitch.toNat (show 1000 ≤ 100000 by decide)
    have hgap := clamp_mem r.mergeGap.toNat (show 0 ≤ 1000 by decide)
    have hblind := clamp_mem r.blindLimit.toNat (show 0 ≤ 255 by decide)
    have hwait := clamp_mem r.lineWait.toNat (show 1 ≤ 100 by decide)
    simp only [LineSection.inRange, hrange, hpitch, hgap.2, hblind.2, hwait, and_self, decide_true, Bool.and_self]
  · cases h

/-! ### The working card after an edit -/

theorem cardInRange_putLimits {c : Card} (hc : CardRanges c) (i : Fin 32) {f : Feature} {l : Limits} (hf : c.features[i] = some f)
    (hl : l.inRange = true) : CardRanges { c with features := setAt c.features i (some { f with limits := l }) } := by
  refine hc.setFeature i (fun x hx => ?_) fun htrended => ?_
  · cases hx
    have hold := hc.feature hf
    simp only [Feature.inRange, Bool.and_eq_true, decide_eq_true_eq] at hold ⊢
    exact ⟨⟨hold.1.1, hl⟩, hold.2⟩
  · refine Std.lt_of_lt_of_le ?_ hc.trended
    have hi : trendedAt c.features[i] = true := by rw [hf]; exact htrended
    rw [trendedCount_eq, trendedOthers_eq, List.countP_eq_countP_filter_add _ (fun j => trendedAt c.features[j]) (· != i), List.countP_filter,
      List.countP_filter]
    have hpos : 0 < featuresInOrder.countP fun j => trendedAt c.features[j] && !(j != i) :=
      List.countP_pos_iff.mpr ⟨i, List.mem_finRange i, by simp at hi ⊢; exact hi⟩
    simp only [Bool.and_comm] at hpos ⊢
    omega

/-- The limits of a list of features give way to the pending ones. -/
theorem limitedFeatures_get (fs : Vector (Option Feature) 32) (ls : Vector (Option Limits) 32) (f : Fin 32) :
    (limitedFeatures fs ls)[f] = fs[f].map fun x => { x with limits := ls[f].getD x.limits } := by
  simp only [limitedFeatures, Fin.getElem_fin, Vector.getElem_ofFn]
  split
  · next hx hl => simp [hx, hl]
  · next x _ hno =>
    cases hx : fs[f.val] with
    | none => rfl
    | some x =>
        cases hl : ls[f.val] with
        | none => rfl
        | some l => exact absurd hl (hno x l hx)

theorem cardInRange_limited {c : Card} (hc : CardRanges c) {ls : Vector (Option Limits) 32}
    (hl : ∀ f l, ls[(f : Fin 32)] = some l → l.inRange = true) : CardRanges { c with features := limitedFeatures c.features ls } := by
  have hfeatures : (limitedFeatures c.features ls).toList.all featureHolds = true := by
    refine List.all_eq_true.mpr fun f hf => ?_
    obtain ⟨j, hj, rfl⟩ := List.getElem_of_mem hf
    have hget := limitedFeatures_get c.features ls ⟨j, by simpa using hj⟩
    simp only [Fin.getElem_fin] at hget
    simp only [Vector.getElem_toList, hget]
    cases hold : c.features[j]'(by simpa using hj) with
    | none => rfl
    | some x =>
        have hx : x.inRange = true := hc.feature (i := ⟨j, by simpa using hj⟩) hold
        cases hlim : ls[j]'(by simpa using hj) with
        | none => exact hx
        | some l =>
            have hin := hl ⟨j, by simpa using hj⟩ l hlim
            simp only [Option.map_some, Option.getD_some, featureHolds, Feature.inRange, Bool.and_eq_true, decide_eq_true_eq] at hx ⊢
            exact ⟨⟨hx.1.1, hin⟩, hx.2⟩
  have htrended : ({ c with features := limitedFeatures c.features ls } : Card).trendedCount = c.trendedCount := by
    rw [trendedCount_eq, trendedCount_eq]
    refine List.countP_congr fun j _ => ?_
    rw [limitedFeatures_get]
    cases c.features[j] <;> rfl
  exact hc.withFeatures hfeatures (Nat.le_trans (Nat.le_of_eq htrended) hc.trended)

end Sys2Proof.Machine
end

section
/-! What every command can do to the card store, and the invariants of the cards, the digests and the banks that follow. -/

namespace Sys2Proof.Machine

namespace CardStore.Change

variable {c : Instr}

theorem applyPending (x : CardStore) : Change c x x.applyPending := by
  unfold CardStore.applyPending
  split
  · exact same x
  · refine next (edit x { x.card with features := limitedFeatures x.card.features x.pendingLimits } (fun hc hl => ?_) (.inl rfl)
      (.inl rfl)) (dropPending _)
    exact (cardInRange_iff _).mpr (cardInRange_limited ((cardInRange_iff _).mp hc) hl)

theorem returnToIdle {x : CardStore} {s : State} (h : Change c x s.store) : Change c x s.returnToIdle.store := by
  rw [State.returnToIdle, State.store_withStore]
  exact next h (applyPending _)

theorem endStrand (s : State) (i : Fin 4) : Change c s.store (s.endStrand i).store := by
  simp only [State.endStrand]
  split
  · exact returnToIdle (same _)
  · exact same _

theorem cutStrand (cut : Int) (s : State) (i : Fin 4) : Change c s.store (s.cutStrand cut i).store := by
  simp only [State.cutStrand]
  split
  · split
    · refine next (of_eq ?_) (endStrand _ i)
      split <;> rfl
    · split <;> exact same _
  · exact same _

theorem foldl {α : Type} {f : State → α → State} (h : ∀ s x, Change c s.store (f s x).store) (xs : List α) (s : State) :
    Change c s.store (xs.foldl f s).store := by
  induction xs generalizing s with
  | nil => exact same _
  | cons x xs ih => exact next (h s x) (ih (f s x))

theorem takeCut (s : State) : Change c s.store s.takeCut.store := by
  unfold State.takeCut
  split
  · exact same _
  · next travel rest _ =>
    have hready : s.takeDueReports.store = s.store := by unfold State.takeDueReports; split <;> rfl
    have hcut : Change c s.store (s.takeDueReports.cutStrands (sawCoordinate s.store.card.line travel)).store :=
      next (of_eq hready) (foldl (fun s i => cutStrand _ s i) strandsInOrder _)
    simp only [State.leaveCut, State.store_withTracker, State.store_withRunout]
    split
    · rw [State.applyPending, State.store_withStore]
      exact next hcut (applyPending _)
    · exact hcut

theorem finalLength (o : Origin) (i : Fin 4) (h : Int) (s : State) : Change c s.store (s.finalLength o i h).store :=
  of_eq (State.store_finalLength o i h s)

theorem closeStrand (o : Origin) (h : Int) (s : State) (i : Fin 4) : Change c s.store (s.closeStrand o h i).store := by
  unfold State.closeStrand
  split
  · exact finalLength o i h s
  · exact same _

/-- An edit of the working card that keeps it in its ranges. -/
theorem editOf (x : CardStore) {card : Card} (h : CardRanges x.card → CardRanges card)
    (hheads : card.heads = x.card.heads ∨ ∃ head r, c = .setHead head r := by exact .inl rfl)
    (hthermal : card.thermal = x.card.thermal ∨ ∃ r, c = .setThermal r := by exact .inl rfl) : Change c x (x.edit card) :=
  edit x card (fun hx _ => (cardInRange_iff _).mpr (h ((cardInRange_iff _).mp hx))) hheads hthermal

theorem setHead (head : Byte) (r : RawHead) (s : State) : Change (.setHead head r) s.store (s.setHead head r).1.store := by
  fun_cases State.setHead head r s
  case case5 i _ _ h hr htaken =>
    exact editOf _ (fun hc => hc.setHead i (headRecordOf_inRange hr) (Bool.eq_false_iff.mpr htaken)) (.inr ⟨_, _, rfl⟩)
  all_goals exact same _

theorem setCurve (head : Byte) (points : List Word32) (s : State) : Change c s.store (s.setCurve head points).1.store := by
  fun_cases State.setCurve head points s
  case case4 i _ _ v hv => exact editOf _ fun hc => hc.setCurve i (curveOf_inRange hv)
  all_goals exact same _

theorem setFeature (f : Byte) (r : RawFeature) (s : State) : Change c s.store (s.setFeature f r).1.store := by
  fun_cases State.setFeature f r s
  case case5 i _ _ f _ hf htrended =>
    refine editOf _ fun hc => hc.setFeature i (fun x hx => by cases hx; exact featureOf_inRange hf) fun ht => ?_
    simpa [show f.trended = true from ht] using htrended
  all_goals exact same _

theorem clearFeature (f : Byte) (s : State) : Change c s.store (s.clearFeature f).1.store := by
  fun_cases State.clearFeature f s
  case case3 i _ _ => exact editOf _ fun hc => hc.setFeature i (fun x hx => by cases hx) fun ht => by cases ht
  all_goals exact same _

theorem setLimits (f : Byte) (r : RawLimits) (s : State) : Change (.setLimits f r) s.store (s.setLimits f r).1.store := by
  fun_cases State.setLimits f r s
  case case4 i _ _ hf _ _ hl _ => exact editOf _ fun hc => cardInRange_putLimits hc i hf (limitsOf_inRange hl)
  case case5 i _ _ hf _ _ hl _ => exact defer _ i _ (limitsOf_inRange hl) ⟨f, r, rfl⟩
  all_goals exact same _

theorem setThermal (r : RawThermal) (s : State) : Change (.setThermal r) s.store (s.setThermal r).1.store := by
  fun_cases State.setThermal r s
  case case3 ht => exact editOf _ (fun hc => { hc with thermal := thermalOf_inRange ht }) (.inl rfl) (.inr ⟨_, rfl⟩)
  all_goals exact same _

theorem setLine (r : RawLine) (s : State) : Change c s.store (s.setLine r).1.store := by
  fun_cases State.setLine r s
  case case2 hl _ =>
    simp only [editReply, State.putLine]
    split
    · exact same _
    · exact editOf _ fun hc => { hc with line := lineOf_inRange hl }
  all_goals exact same _

theorem setIdentity (die : Word32) (revision : Word16) (alloy strands : Byte) (s : State) :
    Change c s.store (s.setIdentity die revision alloy strands).1.store := by
  fun_cases State.setIdentity die revision alloy strands s
  case case3 hstrands =>
    refine editOf _ fun hc => { hc with identity := ?_ }
    have hdie := die.isLt
    have hrevision := revision.isLt
    have halloy := alloy.isLt
    simp only
    omega
  all_goals exact same _

theorem bankLoad (b : Byte) (s : State) : Change (.bankLoad b) s.store (s.bankLoad b).1.store := by
  fun_cases State.bankLoad b s
  case case5 => 
    simp only [State.store_withReport, State.store_withStore, CardStore.suspending_id]
    exact resume _
  case case6 i _ _ _ hvalid hintact loaded =>
    simp at hvalid hintact
    refine next (resume _) (next (load s.store.resume i ?_ ?_ ⟨b, rfl⟩) (of_eq ?_))
    · simpa using hvalid
    · simpa using hintact
    · simp [loaded, State.loadBank, CardStore.load, CardStore.suspending_card, CardStore.dropPending]
  all_goals exact same _

theorem withdraw (b : Byte) (s : State) : Change c s.store (s.withdraw b).1.store := by
  fun_cases State.withdraw b s
  case case2 i _ _ _ => exact next (finalLength _ _ _ s) (endStrand _ _)
  all_goals exact same _

theorem runClose (s : State) : Change c s.store s.runClose.1.store := by
  unfold State.runClose
  split
  · exact same _
  · exact returnToIdle (foldl (fun s i => closeStrand _ _ s i) strandsInOrder s)

theorem sendReply (s : State) : Change c s.store s.sendReply.store := by
  fun_cases State.sendReply s
  case case2 => exact dropPending _
  all_goals exact same _

theorem endStore (found : StoreRead) (s : State) : Change (.bankStoreEnd found) s.store (s.endStore found).store := by
  fun_cases State.endStore found s
  case case1 j hj => exact ended _ j found hj rfl
  all_goals exact same _

theorem failed (landed : Bool) (s : State) : Change c s.store (s.failed landed).store := by
  simp only [State.failed, State.store_withPowered, State.store_withLink, State.store_withStore]
  split
  · exact next (land _ _) (lost _)
  · exact lost _

end CardStore.Change

/-- What every command can do to the card store. -/
theorem effect_store (c : Instr) (s : State) : CardStore.Change c s.store (effect c s).store := by
  by_cases htouch : .store ∈ touches c
  · cases c
    case powerOn straps high => exact .powerOn _ ⟨_, _, rfl⟩
    case takeCut => exact .takeCut s
    case bankStoreEnd found => exact .endStore found s
    case replySent => exact .sendReply s
    case setHead head r => exact .setHead head r s
    case setCurve head points => exact .setCurve head points s
    case setFeature f r => exact .setFeature f r s
    case clearFeature f => exact .clearFeature f s
    case setLimits f r => exact .setLimits f r s
    case setThermal r => exact .setThermal r s
    case setLine r => exact .setLine r s
    case setIdentity die revision alloy strands => exact .setIdentity die revision alloy strands s
    case bankLoad b => exact .bankLoad b s
    case bankStore b => exact .storeBank s.store b
    case bankLock b m => exact .lockBank s.store b m
    case setBoot b => exact .chooseBoot s.store b
    case runClose => exact .runClose s
    case withdraw i => exact .withdraw i s
    case supplyFailure landed => exact .failed landed s
    all_goals simp [touches] at htouch
  · exact .of_eq (effect_frame c s htouch)

/-- What holds of every entry of a vector and of a new one at its place holds of every entry after it is put in. -/
theorem forall_setAt {α : Type} {n : Nat} {P : Fin n → α → Prop} {v : Vector α n} {i : Fin n} {x : α} (h : ∀ j : Fin n, P j v[j])
    (hx : P i x) (j : Fin n) : P j (setAt v i x)[j] := by
  rw [setAt_get]
  split
  · next hj => exact hj ▸ hx
  · exact h j

/-! ### Ranges -/

/-- The cards of a store keep to their ranges. -/
def CardStore.InRange (x : CardStore) : Prop :=
  x.card.inRange = true ∧ x.pendingInRange ∧ x.banksInRange ∧ x.engine.copyInRange

theorem cardInRange_empty : Card.empty.inRange = true := by decide +kernel

theorem CardStore.pendingInRange_none {x : CardStore} (h : x.pendingLimits = Vector.replicate 32 none) : x.pendingInRange := by
  intro f l hl
  simp [h] at hl

theorem CardStore.pendingInRange_defer {x : CardStore} {i : Fin 32} {l : Limits} (h : x.pendingInRange) (hl : l.inRange = true) :
    (x.defer i l).pendingInRange := fun f =>
  forall_setAt (P := fun _ (o : Option Limits) => ∀ l, o = some l → l.inRange = true) h (fun _ hm => Option.some.inj hm ▸ hl) f

theorem CardStore.banksInRange_putBank {x : CardStore} {i : Fin 8} {k : Bank} (h : x.banksInRange)
    (hk : ∀ c, k.content = .card c → c.inRange = true) : (x.putBank i k).banksInRange := fun b =>
  forall_setAt (P := fun _ (k : Bank) => ∀ c, k.content = .card c → c.inRange = true) h hk b

/-- The card that a bank's content is keeps to its ranges: a card held, one whose canonical form the bytes are, or the free value,
which the model holds to them. -/
theorem BankContent.asCard_inRange {b : BankContent} (h : ∀ c, b = .card c → c.inRange = true) : b.asCard.inRange = true := by
  cases b with
  | card c => exact h c rfl
  | bytes bs =>
      rw [BankContent.asCard]
      cases hc : cardOfContent bs with
      | some c => exact (cardOfContent_sound hc).2
      | none =>
          simp only [Option.getD_none, foreignCardOf]
          split
          · next hforeign => exact hforeign
          · exact cardInRange_empty

theorem BankEngine.copyInRange_resume {x : CardStore} (h : x.engine.copyInRange) : x.resume.engine.copyInRange := by
  unfold CardStore.resume
  split
  · next j hj => rw [hj] at h; exact h
  · exact h

theorem CardStore.Change.inRange {c : Instr} {x y : CardStore} (hchange : CardStore.Change c x y) (h : x.InRange) : y.InRange := by
  induction hchange with
  | same => exact h
  | next _ _ ihx ihy => exact ihy (ihx h)
  | edit x card hcard hheads hthermal =>
      obtain ⟨hc, hp, hb, he⟩ := h
      exact ⟨hcard hc hp, hp, hb, he⟩
  | defer x i l hl _ =>
      obtain ⟨hc, hp, hb, he⟩ := h
      exact ⟨hc, CardStore.pendingInRange_defer hp hl, hb, he⟩
  | dropPending x =>
      obtain ⟨hc, -, hb, he⟩ := h
      exact ⟨hc, CardStore.pendingInRange_none rfl, hb, he⟩
  | resume x =>
      obtain ⟨hc, hp, hb, he⟩ := h
      refine ⟨?_, ?_, ?_, BankEngine.copyInRange_resume he⟩
      · rwa [CardStore.card_resume]
      · simpa [CardStore.pendingInRange] using hp
      · simpa [CardStore.banksInRange] using hb
  | load x i hvalid hintact hc =>
      obtain ⟨-, -, hb, he⟩ := h
      exact ⟨BankContent.asCard_inRange (hb i), CardStore.pendingInRange_none rfl, hb, he⟩
  | start x i hidle =>
      obtain ⟨hc, hp, hb, -⟩ := h
      exact ⟨hc, hp, CardStore.banksInRange_putBank hb (hb i), hc⟩
  | lock x i l =>
      obtain ⟨hc, hp, hb, he⟩ := h
      exact ⟨hc, hp, CardStore.banksInRange_putBank hb (hb i), he⟩
  | boot x b => exact h
  | ended x j found hj hc =>
      obtain ⟨hc, hp, hb, he⟩ := h
      rw [hj] at he
      refine ⟨hc, hp, CardStore.banksInRange_putBank hb ?_, trivial⟩
      intro c hcontent
      cases found <;> simp only [readContent, reduceCtorEq, BankContent.card.injEq] at hcontent
      exact hcontent ▸ he
  | lost x =>
      obtain ⟨hc, hp, hb, -⟩ := h
      exact ⟨hc, hp, hb, trivial⟩
  | powerOn x hc =>
      obtain ⟨-, -, hb, -⟩ := h
      have hbanks : x.powerOn.banksInRange := by
        intro b c hcontent
        refine hb b c ?_
        simpa [CardStore.powerOn, Bank.powerOn, apply_ite Bank.content] using hcontent
      refine ⟨?_, CardStore.pendingInRange_none rfl, hbanks, trivial⟩
      show (bootCard x.powerOn.banks x.boot).1.inRange = true
      unfold bootCard
      split
      · exact cardInRange_empty
      · split
        · exact BankContent.asCard_inRange (hbanks _)
        · exact cardInRange_empty

theorem cardsSound_effect (c : Instr) (s : State) (h : s.CardsSound) : (effect c s).CardsSound := (effect_store c s).inRange h

theorem State.store_passMillisecond (s : State) : s.passMillisecond.store = s.store := by
  unfold State.passMillisecond
  split <;> rfl

/-- Settles O5, by what a command can do to the card store. -/
theorem stepKeepsCardsInRange : Obligations.StepKeepsCardsInRange := by
  unfold Obligations.StepKeepsCardsInRange
  refine step_keeps (fun _ _ h => h) (fun s h => ?_) (fun _ _ _ h => h) cardsSound_effect
  rwa [State.CardsSound, State.store_passMillisecond]

end Sys2Proof.Machine
end

section
/-! The banks and the digests along every command (R143 to R148). -/

namespace Sys2Proof.Machine

/-- A store whose memory is as R146 to R148 leave it. -/
def CardStore.Sound (x : CardStore) : Prop :=
  x.storesUnder x.engine ∧ (∀ j, x.engine ≠ .suspended j) ∧ ∀ b, x.banks[(b : Fin 8)].valid = true → x.banks[b].intact = true

/-- What an engine that stores asks of the banks depends on the flag and the digest of the bank it stores alone. -/
theorem CardStore.storesUnder_congr {x y : CardStore} {e : BankEngine} (h : x.storesUnder e)
    (hv : ∀ b, x.banks[(b : Fin 8)].valid = false → y.banks[b].valid = false)
    (hd : ∀ b, y.banks[(b : Fin 8)].digest = x.banks[b].digest) : y.storesUnder e := by
  cases e with
  | idle => trivial
  | storing j => exact ⟨hv _ h.1, (hd _).trans h.2⟩
  | suspended j => exact ⟨hv _ h.1, (hd _).trans h.2⟩

theorem CardStore.banks_putBank (x : CardStore) (i b : Fin 8) (k : Bank) :
    (x.putBank i k).banks[b] = if b = i then k else x.banks[b] := setAt_get x.banks i b k

/-- A bank that keeps flag, content and digest keeps a sound store sound. -/
theorem CardStore.Sound.putBank {x : CardStore} (h : x.Sound) {i : Fin 8} {k : Bank} (hv : k.valid = x.banks[i].valid)
    (hc : k.content = x.banks[i].content) (hd : k.digest = x.banks[i].digest) : (x.putBank i k).Sound := by
  obtain ⟨hunder, hengine, hvalid⟩ := h
  refine ⟨CardStore.storesUnder_congr hunder (fun b hb => ?_) fun b => ?_, hengine, fun b hb => ?_⟩
  · rw [CardStore.banks_putBank]
    split
    · next hi => rw [hv, ← hi, hb]
    · exact hb
  · rw [CardStore.banks_putBank]
    split
    · next hi => rw [hd, ← hi]
    · rfl
  · rw [CardStore.banks_putBank] at hb ⊢
    split at hb
    · next hi =>
      rw [if_pos hi, Bank.intact, hc, hd]
      exact hvalid i (hv ▸ hb)
    · next hi =>
      rw [if_neg hi]
      exact hvalid b hb

theorem CardStore.Change.sound {c : Instr} {x y : CardStore} (hchange : CardStore.Change c x y) (h : x.Sound) : y.Sound := by
  induction hchange with
  | same => exact h
  | next _ _ ihx ihy => exact ihy (ihx h)
  | edit x card hcard hheads hthermal => exact h
  | defer x i l hl _ => exact h
  | dropPending x => exact h
  | resume x => rwa [CardStore.resume_eq x h.2.1]
  | load x i hvalid hintact hc => exact h
  | boot x b => exact h
  | start x i hidle =>
      obtain ⟨-, -, hvalid⟩ := h
      refine ⟨?_, fun j => by simp [CardStore.startStore], fun b hb => ?_⟩
      · show _ ∧ _
        simp [CardStore.startStore, CardStore.putBank, Bank.accept]
      · change ((x.putBank i _).banks[b]).valid = true at hb
        show ((x.putBank i _).banks[b]).intact = true
        rw [CardStore.banks_putBank] at hb ⊢
        split at hb
        · cases hb
        · next hi =>
          rw [if_neg hi]
          exact hvalid b hb
  | lock x i l => exact h.putBank rfl rfl rfl
  | ended x j found hj hc =>
      obtain ⟨hunder, -, hvalid⟩ := h
      rw [hj] at hunder
      refine ⟨trivial, fun j => by simp [CardStore.endStore], fun b hb => ?_⟩
      change ((x.putBank j.bank _).banks[b]).valid = true at hb
      show ((x.putBank j.bank _).banks[b]).intact = true
      rw [CardStore.banks_putBank] at hb ⊢
      split at hb
      · next hi =>
        simp only [storeSucceeds, Bool.and_eq_true] at hb
        rw [if_pos hi, Bank.intact, hunder.2]
        exact hb.2
      · next hi =>
        rw [if_neg hi]
        exact hvalid b hb
  | lost x => exact ⟨trivial, fun j => by simp, h.2.2⟩
  | powerOn x hc =>
      refine ⟨trivial, fun j => by simp [CardStore.powerOn], fun b hb => ?_⟩
      have hbank : x.powerOn.banks[b] = x.banks[b].powerOn := by simp [CardStore.powerOn]
      rw [hbank] at hb ⊢
      unfold Bank.powerOn at hb ⊢
      split at hb
      · next hheld => rw [if_pos hheld]; exact h.2.2 b hb
      · next hheld => rw [if_neg hheld]; exact h.2.2 b hb

theorem banksSound_effect (c : Instr) (s : State) (h : s.BanksSound) : (effect c s).BanksSound := (effect_store c s).sound h

/-- Settles O8, by what a command can do to the card store. -/
theorem stepKeepsBanks : Obligations.StepKeepsBanks := by
  unfold Obligations.StepKeepsBanks
  refine step_keeps (fun _ _ h => h) (fun s h => ?_) (fun _ _ _ h => h) banksSound_effect
  rwa [State.BanksSound, State.store_passMillisecond]

/-- A store whose digests agree with its cards (R143, R144, R146). -/
def CardStore.Digested (x : CardStore) : Prop :=
  x.digest = digestOf x.card ∧ x.engine.digestAgrees
    ∧ ∀ b, x.banks[(b : Fin 8)].valid = true → ∃ c, x.banks[b].content = .card c ∧ x.banks[b].digest = digestOf c

/-- A valid bank of a store whose digests agree gives the digest of the card that it is. -/
theorem CardStore.Digested.asCard {x : CardStore} (h : x.Digested) {b : Fin 8} (hb : x.banks[b].valid = true) :
    x.banks[b].digest = digestOf x.banks[b].content.asCard := by
  obtain ⟨card, hcontent, hdigest⟩ := h.2.2 b hb
  rw [hdigest, hcontent, BankContent.asCard]

/-- A bank put in its place that agrees with a card where it is valid. -/
theorem CardStore.digested_putBank {x : CardStore}
    (h : ∀ b, x.banks[(b : Fin 8)].valid = true → ∃ c, x.banks[b].content = .card c ∧ x.banks[b].digest = digestOf c) {i : Fin 8}
    {k : Bank} (hk : k.valid = true → ∃ c, k.content = .card c ∧ k.digest = digestOf c) (b : Fin 8)
    (hb : (x.putBank i k).banks[b].valid = true) :
    ∃ c, (x.putBank i k).banks[b].content = .card c ∧ (x.putBank i k).banks[b].digest = digestOf c :=
  forall_setAt (P := fun _ (k : Bank) => k.valid = true → ∃ c, k.content = .card c ∧ k.digest = digestOf c) h hk b hb

theorem CardStore.Change.digested {c : Instr} {x y : CardStore} (hchange : CardStore.Change c x y) (hc : noForeignStore c)
    (hs : x.Sound) (h : x.Digested) : y.Digested := by
  induction hchange with
  | same => exact h
  | next hfirst _ ihx ihy => exact ihy (hfirst.sound hs) (ihx hs h)
  | edit x card hcard hheads hthermal => exact ⟨rfl, h.2⟩
  | defer x i l hl _ => exact h
  | dropPending x => exact h
  | resume x => rwa [CardStore.resume_eq x hs.2.1]
  | load x i hvalid hintact hc => exact ⟨h.asCard hvalid, h.2⟩
  | boot x b => exact h
  | start x i hidle => exact ⟨h.1, h.1, CardStore.digested_putBank h.2.2 fun hvalid => by cases hvalid⟩
  | lock x i l => exact ⟨h.1, h.2.1, CardStore.digested_putBank h.2.2 (h.2.2 i)⟩
  | ended x j found hj hend =>
      have hdigest := h.2.1
      have hunder := hs.1
      rw [hj] at hdigest hunder
      refine ⟨h.1, trivial, CardStore.digested_putBank h.2.2 fun hvalid => ?_⟩
      cases found with
      | copy => exact ⟨j.copy, rfl, hunder.2.trans hdigest⟩
      | other bs => rw [hend] at hc; exact hc.elim
      | incomplete bs => cases hvalid
  | lost x => exact ⟨h.1, trivial, h.2.2⟩
  | powerOn x hc =>
      have hbank : ∀ b : Fin 8, x.powerOn.banks[b] = x.banks[b].powerOn := fun b => by simp [CardStore.powerOn]
      have hbanks : ∀ b, x.powerOn.banks[(b : Fin 8)].valid = true →
          ∃ c, x.powerOn.banks[b].content = .card c ∧ x.powerOn.banks[b].digest = digestOf c := by
        intro b hb
        rw [hbank] at hb ⊢
        unfold Bank.powerOn at hb ⊢
        split at hb
        · next hheld => rw [if_pos hheld]; exact h.2.2 b hb
        · next hheld => rw [if_neg hheld]; exact h.2.2 b hb
      refine ⟨?_, trivial, hbanks⟩
      show (bootCard x.powerOn.banks x.boot).2 = digestOf (bootCard x.powerOn.banks x.boot).1
      unfold bootCard
      split
      · rfl
      · split
        · next hok =>
          obtain ⟨card, hcontent, hdigest⟩ := hbanks _ (Bool.and_eq_true _ _ ▸ hok).1
          rw [hdigest, hcontent, BankContent.asCard]
        · rfl

/-- Settles O7, by what a command can do to the card store; the banks' soundness ties a bank being stored to the copy's digest. -/
theorem stepKeepsDigests : Obligations.StepKeepsDigests := by
  unfold Obligations.StepKeepsDigests
  intro s t hfront hbanks hdigests hstep
  refine (step_keeps_of (P := fun s => s.BanksSound ∧ s.DigestsSound) (fun _ _ h => h) (fun s h => ?_) (fun _ _ _ h => h)
    (fun c s hc h => ⟨banksSound_effect c s h.1, (effect_store c s).digested hc h.1 h.2⟩) hfront ⟨hbanks, hdigests⟩ hstep).2
  rwa [State.BanksSound, State.DigestsSound, State.store_passMillisecond]

end Sys2Proof.Machine
end

section
/-! The press: what takes it out of IDLE, and the travel unit along every command (R17 to R26, R91 to R101). -/

namespace Sys2Proof.Machine

@[simp] theorem State.tracker_withStrand (s : State) (i : Fin 4) (st : Strand) :
    (s.withStrand i st).tracker = s.tracker.putStrand i st := rfl

@[simp] theorem Tracker.press_putStrand (t : Tracker) (i : Fin 4) (st : Strand) : (t.putStrand i st).press = t.press := rfl

@[simp] theorem Tracker.strands_putStrand (t : Tracker) (i : Fin 4) (st : Strand) :
    (t.putStrand i st).strands = setAt t.strands i st := rfl

@[simp] theorem State.tracker_withTracked (s : State) (i : Fin 4) (t : Tracked) :
    (s.withTracked i t).tracker = s.tracker.putStrand i t.strand := rfl

@[simp] theorem State.tracker_formLength (o : Origin) (i : Fin 4) (upper : Int) (s : State) :
    (s.formLength o i upper).tracker = s.tracker.putStrand i (s.tracker.strands[i].advance s.store.card upper) := rfl

@[simp] theorem State.press_formLength (o : Origin) (i : Fin 4) (upper : Int) (s : State) :
    (s.formLength o i upper).tracker.press = s.tracker.press := rfl

@[simp] theorem State.press_finalLength (o : Origin) (i : Fin 4) (h : Int) (s : State) :
    (s.finalLength o i h).tracker.press = s.tracker.press := by
  simp only [State.finalLength]
  split <;> rfl

@[simp] theorem State.press_returnToIdle (s : State) : s.returnToIdle.tracker.press = .idle := rfl

@[simp] theorem State.strands_returnToIdle (s : State) : s.returnToIdle.tracker.strands = s.tracker.strands := rfl

@[simp] theorem State.tracker_applyPending (s : State) : s.applyPending.tracker = s.tracker := rfl

@[simp] theorem State.tracker_received (s : State) : s.received.tracker = s.tracker := rfl

@[simp] theorem State.tracker_takeScan (e : ScanEvent) (s : State) :
    (s.takeScan e).tracker = s.tracker.putStrand e.strand (s.tracker.strands[e.strand].takeScan e).strand := rfl

@[simp] theorem State.tracker_takeOpen (e : ZoneOpen) (s : State) :
    (s.takeOpen e).tracker = s.tracker.putStrand e.strand (s.tracker.strands[e.strand].openZone e).strand := rfl

@[simp] theorem State.tracker_takeUpdate (e : ZoneUpdate) (s : State) :
    (s.takeUpdate e).tracker = s.tracker.putStrand e.strand (s.tracker.strands[e.strand].updateZone e) := rfl

@[simp] theorem State.tracker_takeClose (e : ZoneClose) (s : State) :
    (s.takeClose e).tracker = s.tracker.putStrand e.strand (s.tracker.strands[e.strand].closeZone s.store.card e).strand := rfl

/-- The press stays as it is or returns to IDLE. -/
def PressFalls (s t : State) : Prop := t.tracker.press = s.tracker.press ∨ t.tracker.press = .idle

theorem PressFalls.trans {s t u : State} (h : PressFalls s t) (k : PressFalls t u) : PressFalls s u := by
  obtain hk | hk := k
  · obtain hh | hh := h
    · exact .inl (hk.trans hh)
    · exact .inr (hk.trans hh)
  · exact .inr hk

theorem PressFalls.foldl {α : Type} {f : State → α → State} (h : ∀ s x, PressFalls s (f s x)) (xs : List α) (s : State) :
    PressFalls s (xs.foldl f s) := by
  induction xs generalizing s with
  | nil => exact .inl rfl
  | cons x xs ih => exact (h s x).trans (ih (f s x))

theorem pressFalls_endStrand (i : Fin 4) (s : State) : PressFalls s (s.endStrand i) := by
  simp only [State.endStrand]
  split
  · exact .inr rfl
  · exact .inl rfl

theorem pressFalls_cutStrand (c : Int) (s : State) (i : Fin 4) : PressFalls s (s.cutStrand c i) := by
  simp only [State.cutStrand]
  split
  · have hformed : PressFalls s (if Strand.formsLength c s.tracker.strands[i] then
        s.formLength .cut i (cutUpper s.tracker.strands[i] c) else s) := .inl (by split <;> rfl)
    split
    · exact hformed.trans (pressFalls_endStrand i _)
    · exact hformed
  · exact .inl rfl

theorem State.takeCut_of_cons {s : State} {travel : Nat} {rest : List Nat} {c : Int} (h : s.runout.cuts = travel :: rest)
    (hc : c = sawCoordinate s.store.card.line travel) : s.takeCut = State.leaveCut rest
      (if s.takeDueReports.tracker.formsRecord c then (s.takeDueReports.cutStrands c).applyPending
        else s.takeDueReports.cutStrands c) := by
  rw [State.takeCut, h, hc]

theorem State.takeCut_of_nil {s : State} (h : s.runout.cuts = []) : s.takeCut = s := by
  rw [State.takeCut, h]

@[simp] theorem State.press_leaveCut (rest : List Nat) (s : State) : (s.leaveCut rest).tracker.press = s.tracker.press := rfl

@[simp] theorem State.strands_leaveCut (rest : List Nat) (s : State) : (s.leaveCut rest).tracker.strands = s.tracker.strands := rfl

@[simp] theorem State.store_leaveCut (rest : List Nat) (s : State) : (s.leaveCut rest).store = s.store := rfl

theorem pressFalls_takeCut (s : State) : PressFalls s s.takeCut := by
  cases h : s.runout.cuts with
  | nil =>
      rw [State.takeCut_of_nil h]
      exact .inl rfl
  | cons travel rest =>
      have hready : PressFalls s s.takeDueReports := .inl (by unfold State.takeDueReports; split <;> rfl)
      have hcut : PressFalls s (s.takeDueReports.cutStrands (sawCoordinate s.store.card.line travel)) := by
        rw [State.cutStrands]
        exact hready.trans (PressFalls.foldl (pressFalls_cutStrand _) strandsInOrder _)
      rw [State.takeCut_of_cons h rfl, PressFalls, State.press_leaveCut]
      split
      · rwa [State.tracker_applyPending]
      · exact hcut

@[simp] theorem State.press_eachStrand (f : Strand → Tracked) (s : State) : (s.eachStrand f).tracker.press = s.tracker.press := rfl

@[simp] theorem Tracker.press_follow (old new : Nat) (t : Tracker) : (t.follow old new).press = t.press := by
  unfold Tracker.follow
  split <;> rfl

@[simp] theorem State.tracker_loadBank (b : Bank) (s : State) :
    (s.loadBank b).tracker = s.tracker.follow s.store.card.strands (s.store.load b).card.strands := rfl

/-- No command but RUN_START takes the press out of IDLE (R91, R95). -/
theorem press_effect_of_idle {c : Instr} {s : State} (hc : c ≠ .runStart) (h : s.tracker.press = .idle) :
    (effect c s).tracker.press = .idle := by
  by_cases htouch : .tracker ∈ touches c
  · cases c
    case runStart => exact absurd rfl hc
    case powerOn straps high => rfl
    case takeCut => exact (pressFalls_takeCut s).elim (·.trans h) id
    case withdraw i =>
      simp only [effect]
      fun_cases State.withdraw i s
      case case2 i _ _ _ => exact (pressFalls_endStrand i _).elim (fun hp => by rw [hp, State.press_finalLength, h]) id
      all_goals exact h
    case replySent =>
      simp only [effect]
      fun_cases State.sendReply s
      case case2 => rfl
      all_goals exact h
    case scanEvent e =>
      obtain hk | ⟨-, hk⟩ := s.takeEvent_cases (.scan e) (State.takeScan e) <;> simpa [effect, hk] using h
    case zoneOpenEvent e =>
      obtain hk | ⟨-, hk⟩ := s.takeEvent_cases (.start e) (State.takeOpen e) <;> simpa [effect, hk] using h
    case zoneUpdateEvent e =>
      obtain hk | ⟨-, hk⟩ := s.takeEvent_cases (.update e) (State.takeUpdate e) <;> simpa [effect, hk] using h
    case zoneCloseEvent e =>
      obtain hk | ⟨-, hk⟩ := s.takeEvent_cases (.close e) (State.takeClose e) <;> simpa [effect, hk] using h
    case bankLoad b =>
      simp only [effect]
      fun_cases State.bankLoad b s
      case case6 => rw [State.tracker_loadBank, Tracker.press_follow, h]
      all_goals exact h
    case setIdentity die revision alloy strands =>
      simp only [effect]
      fun_cases State.setIdentity die revision alloy strands s
      case case3 => simpa [editReply, State.putIdentity] using h
      all_goals exact h
    case cutEdge micros =>
      simp only [effect, State.latchCut]
      split
      · exact h
      · split <;> exact h
    case lostCutReport =>
      simp only [effect, State.takeLostCut]
      split <;> exact h
    case billetJoin => simp [effect, State.billetJoin, State.pressing, h]
    case stop => simp [effect, State.stop, h]
    case resume => simp [effect, State.resume, State.pressing, h]
    case runEnd => simp [effect, State.runEnd, State.pressing, h]
    case runClose => simp [effect, State.runClose, State.pressIdle, h]
    all_goals simp [touches] at htouch
  · exact (show _ = _ from effect_frame c s htouch ▸ rfl).trans h

end Sys2Proof.Machine
end

section
/-! The travel unit keeps to its ranges (R17 to R26, R29). -/

namespace Sys2Proof.Machine

/-- The ranges of the travel unit's fields, whatever the press. -/
structure TravelRanges (r : TravelUnit) : Prop where
  travel    : r.travel ≤ 1099511627775
  deficitA  : r.deficitA ≤ 4294967295
  deficitB  : r.deficitB ≤ 4294967295
  places    : r.cuts.length ≤ 4
  cuts      : ∀ t ∈ r.cuts, t ≤ 1099511627775
  pitch     : 1000 ≤ r.pitch ∧ r.pitch ≤ 100000
  nextPitch : ∀ p, r.nextPitch = some p → 1000 ≤ p ∧ p ≤ 100000
  remainder : r.remainder ≤ r.travel

theorem travelSound_iff (s : State) :
    s.TravelSound ↔ TravelRanges s.runout ∧ (s.tracker.press ≠ .idle → s.runout.remainder < s.runout.pitch) :=
  ⟨fun ⟨ht, ha, hb, hn, hc, hp, hx, hr, hi⟩ => ⟨⟨ht, ha, hb, hn, hc, hp, hx, hr⟩, hi⟩,
    fun ⟨⟨ht, ha, hb, hn, hc, hp, hx, hr⟩, hi⟩ => ⟨ht, ha, hb, hn, hc, hp, hx, hr, hi⟩⟩

/-- The scan pitch of a card that keeps to its ranges (R136). -/
theorem scanPitch_of_inRange {c : Card} (h : c.inRange = true) : 1000 ≤ c.line.scanPitch ∧ c.line.scanPitch ≤ 100000 := by
  have hline := ((cardInRange_iff c).mp h).line
  simp only [LineSection.inRange, Bool.and_eq_true, decide_eq_true_eq] at hline
  exact hline.1.1.1.2

theorem TravelRanges.withDeficit {r : TravelUnit} (h : TravelRanges r) (ch : Puller) {d : Nat} (hd : d ≤ 4294967295) :
    TravelRanges (r.withDeficit ch d) := by
  cases ch
  · exact { h with deficitA := hd }
  · exact { h with deficitB := hd }

theorem TravelRanges.deficit_le {r : TravelUnit} (h : TravelRanges r) (ch : Puller) : r.deficit ch ≤ 4294967295 := by
  cases ch
  · exact h.deficitA
  · exact h.deficitB

/-- A travel unit set anew at a card's scan pitch, with no travel (R20, R23, R26, R32). -/
theorem TravelRanges.anew {c : Card} (h : c.inRange = true) {r : TravelUnit} (ht : r.travel = 0) (ha : r.deficitA = 0)
    (hb : r.deficitB = 0) (hc : r.cuts = []) (hp : r.pitch = c.line.scanPitch) (hn : r.nextPitch = none) (hr : r.remainder = 0) :
    TravelRanges r where
  travel := by omega
  deficitA := by omega
  deficitB := by omega
  places := by simp [hc]
  cuts := by simp [hc]
  pitch := hp ▸ scanPitch_of_inRange h
  nextPitch := by simp [hn]
  remainder := by omega

/-- A crossing takes the pitch in force off the remainder, and the next pitch comes into force (R24, R26). -/
theorem TravelRanges.crossPitch {s : State} (h : TravelRanges s.runout) : TravelRanges s.crossPitch.runout := by
  rw [State.runout_crossPitch]
  refine { h with pitch := ?_, nextPitch := fun p hp => (by cases hp), remainder := ?_ }
  · cases hn : s.runout.nextPitch with
    | none => exact h.pitch
    | some p => exact h.nextPitch p hn
  · have := h.remainder
    simp only
    omega

theorem TravelRanges.crossings {s : State} (n : Nat) (h : TravelRanges s.runout) : TravelRanges (State.crossings n s).runout := by
  induction n generalizing s with
  | zero => exact h
  | succ n ih =>
      unfold State.crossings
      split
      · exact ih h.crossPitch
      · exact h

/-- Drawn travel leaves the travel unit in its ranges, the generator below the pitch where it works or worked below it (R17, R24). -/
theorem travelSound_growTravel {s : State} (d : Nat) (h : s.TravelSound) : (s.growTravel d).TravelSound := by
  obtain ⟨hranges, hbelow⟩ := (travelSound_iff s).mp h
  have htravel : bump travelTop s.runout.travel d ≤ 1099511627775 := Nat.min_le_left _ _
  have hremainder := hranges.remainder
  have hgrown : s.runout.travel ≤ bump travelTop s.runout.travel d := by
    have := hranges.travel
    simp only [bump, travelTop]
    omega
  rw [travelSound_iff]
  simp only [State.growTravel]
  split
  · have hstart : TravelRanges { s.runout with
        travel := bump travelTop s.runout.travel d,
        remainder := s.runout.remainder + (bump travelTop s.runout.travel d - s.runout.travel) } :=
      { hranges with travel := htravel, remainder := by simp only; omega }
    refine ⟨TravelRanges.crossings _ hstart, fun _ => State.crossings_below _ _ ?_ ?_ ?_⟩
    · exact Std.le_refl _
    · exact Std.lt_of_lt_of_le (by decide) hranges.pitch.1
    · exact fun p hp => Std.lt_of_lt_of_le (by decide) (hranges.nextPitch p hp).1
  · exact ⟨{ hranges with travel := htravel, remainder := Std.le_trans hremainder hgrown }, hbelow⟩

theorem travelSound_withDeficit {s : State} (h : s.TravelSound) (ch : Puller) {d : Nat} (hd : d ≤ 4294967295) :
    (s.withRunout (s.runout.withDeficit ch d)).TravelSound := by
  obtain ⟨hranges, hbelow⟩ := (travelSound_iff s).mp h
  refine (travelSound_iff _).mpr ⟨hranges.withDeficit ch hd, ?_⟩
  cases ch <;> exact hbelow

theorem travelSound_advance {s : State} (h : s.TravelSound) (ch : Puller) (scale : Nat) : (s.advance ch scale).TravelSound := by
  have hd := ((travelSound_iff s).mp h).1.deficit_le ch
  simp only [State.advance]
  split
  · exact travelSound_withDeficit h ch (by omega)
  · exact travelSound_growTravel _ (travelSound_withDeficit h ch (by omega))

theorem travelSound_latchCut {s : State} (h : s.TravelSound) : s.latchCut.TravelSound := by
  obtain ⟨hranges, hbelow⟩ := (travelSound_iff s).mp h
  rw [travelSound_iff, State.latchCut]
  split
  · next hplace =>
    refine ⟨{ hranges with places := ?_, cuts := ?_ }, hbelow⟩
    · change (s.runout.cuts ++ [s.runout.travel]).length ≤ 4
      rw [List.length_append]
      exact hplace
    · intro t ht
      obtain hold | rfl := (List.mem_append.mp ht).imp_right List.mem_singleton.mp
      · exact hranges.cuts t hold
      · exact hranges.travel
  · exact ⟨hranges, hbelow⟩

/-- The press may return to IDLE while the travel unit keeps its fields. -/
theorem travelSound_of_runout {s t : State} (h : s.TravelSound) (hr : t.runout = s.runout)
    (hp : s.tracker.press = .idle → t.tracker.press = .idle) : t.TravelSound := by
  rw [travelSound_iff] at h ⊢
  rw [hr]
  exact ⟨h.1, fun hidle => h.2 (mt hp hidle)⟩

theorem travelSound_takeCut {s : State} (h : s.TravelSound) : s.takeCut.TravelSound := by
  cases hcuts : s.runout.cuts with
  | nil => rwa [State.takeCut_of_nil hcuts]
  | cons travel rest =>
      obtain ⟨hranges, hbelow⟩ := (travelSound_iff s).mp h
      have hrunout : s.takeCut.runout = { s.runout with cuts := rest } := by
        rw [State.takeCut_of_cons hcuts rfl]
        simp only [State.leaveCut, State.runout_withTracker, State.runout_withRunout]
        have hframe (u : State) (hu : u.runout = s.runout) : ({ u.runout with cuts := rest } : TravelUnit) = { s.runout with cuts := rest } := by
          rw [hu]
        refine hframe _ ?_
        have hready : s.takeDueReports.runout = s.runout := by unfold State.takeDueReports; split <;> rfl
        split <;> simp [State.applyPending, State.cutStrands, hready]
      have hmem : ∀ t ∈ rest, t ∈ s.runout.cuts := fun t ht => hcuts ▸ List.mem_cons_of_mem _ ht
      have hlength : rest.length ≤ s.runout.cuts.length := by simp [hcuts]
      rw [travelSound_iff, hrunout]
      refine ⟨{ hranges with places := Nat.le_trans hlength hranges.places, cuts := fun t ht => hranges.cuts t (hmem t ht) }, fun hp => ?_⟩
      exact hbelow fun hidle => hp ((pressFalls_takeCut s).elim (·.trans hidle) id)

theorem takePitch_ranges {r : TravelUnit} (h : TravelRanges r) (idle : Bool) (old : Nat) {new : Nat}
    (hnew : 1000 ≤ new ∧ new ≤ 100000) : TravelRanges (r.takePitch idle old new) := by
  unfold TravelUnit.takePitch
  split
  · exact h
  · split
    · exact { h with pitch := hnew, nextPitch := fun p hp => (by cases hp) }
    · exact { h with nextPitch := fun p hp => Option.some.inj hp ▸ hnew }

/-- With the press not IDLE a changed scan pitch waits as the next pitch (R26). -/
theorem takePitch_running (r : TravelUnit) (old new : Nat) : (r.takePitch false old new).remainder = r.remainder
    ∧ (r.takePitch false old new).pitch = r.pitch := by
  unfold TravelUnit.takePitch
  split
  · exact ⟨rfl, rfl⟩
  · exact ⟨rfl, rfl⟩

theorem travelSound_setLine {s : State} (r : RawLine) (h : s.TravelSound) : (s.setLine r).1.TravelSound := by
  obtain ⟨hranges, hbelow⟩ := (travelSound_iff s).mp h
  fun_cases State.setLine r s
  case case2 l _ hl _ =>
    simp only [editReply, State.putLine]
    split
    · exact h
    · have hline := lineOf_inRange hl
      simp only [LineSection.inRange, Bool.and_eq_true, decide_eq_true_eq] at hline
      refine (travelSound_iff _).mpr ⟨takePitch_ranges hranges _ _ hline.1.1.1.2, fun hp => ?_⟩
      have hidle : s.pressIdle = false := by simpa [State.pressIdle] using hp
      simp only [State.runout_withRunout, hidle, takePitch_running]
      exact hbelow hp
  all_goals exact h

theorem travelSound_bankLoad {s : State} (b : Byte) (hc : s.CardsSound) (h : s.TravelSound) : (s.bankLoad b).1.TravelSound := by
  have hsound := (effect_store (.bankLoad b) s).inRange hc
  simp only [effect] at hsound
  fun_cases State.bankLoad b s
  case case6 i hi hidle hstoring hvalid hintact loaded =>
    rw [State.bankLoad, hi] at hsound
    simp only [hidle, hstoring, hvalid, hintact] at hsound
    refine (travelSound_iff _).mpr ⟨?_, fun hp => ?_⟩
    · exact takePitch_ranges ((travelSound_iff s).mp h).1 _ _ (scanPitch_of_inRange hsound.1)
    · refine absurd ?_ hp
      rw [State.tracker_loadBank, Tracker.press_follow]
      simpa [State.pressIdle] using hidle
  all_goals exact travelSound_of_runout h rfl id

theorem travelSound_runStart {s : State} (hc : s.CardsSound) (h : s.TravelSound) : s.runStart.1.TravelSound := by
  have hpitch := scanPitch_of_inRange hc.1
  fun_cases State.runStart s
  case case4 =>
    refine (travelSound_iff _).mpr ⟨.anew hc.1 rfl rfl rfl rfl rfl rfl rfl, fun _ => ?_⟩
    show 0 < s.store.card.line.scanPitch
    omega
  all_goals exact h

theorem travelSound_sendReply {s : State} (hc : s.CardsSound) (h : s.TravelSound) : s.sendReply.TravelSound := by
  fun_cases State.sendReply s
  case case2 => exact (travelSound_iff _).mpr ⟨.anew hc.1 rfl rfl rfl rfl rfl rfl rfl, fun hp => absurd rfl hp⟩
  all_goals exact h

theorem travelSound_setTrigger {s : State} (m : Byte) (h : s.TravelSound) : (s.setTrigger m).1.TravelSound := by
  fun_cases State.setTrigger m s
  all_goals exact h

theorem travelSound_effect (c : Instr) (s : State) (hc : s.CardsSound) (h : s.TravelSound) : (effect c s).TravelSound := by
  by_cases htouch : .runout ∈ touches c
  · cases c
    case powerOn straps high =>
      have hsound := (effect_store (.powerOn straps high) s).inRange hc
      exact (travelSound_iff _).mpr ⟨.anew hsound.1 rfl rfl rfl rfl rfl rfl rfl, fun hp => absurd rfl hp⟩
    case forwardCount ch =>
      simp only [effect]
      split
      · exact travelSound_advance h ch _
      · exact h
    case reverseCount ch =>
      simp only [effect]
      split
      · exact travelSound_withDeficit h ch (Nat.min_le_left _ _)
      · exact h
    case pullerSelectChange =>
      have hswitched : (s.withRunout { s.runout with active := otherPuller s.runout.active }).TravelSound := h
      exact travelSound_withDeficit hswitched _ (Nat.zero_le _)
    case cutEdge micros =>
      simp only [effect]
      split
      · exact h
      · exact travelSound_latchCut h
    case takeCut => exact travelSound_takeCut h
    case setLine r => exact travelSound_setLine r h
    case bankLoad b => exact travelSound_bankLoad b hc h
    case runStart => exact travelSound_runStart hc h
    case setTrigger m => exact travelSound_setTrigger m h
    case replySent => exact travelSound_sendReply hc h
    all_goals simp [touches] at htouch
  · refine travelSound_of_runout h (effect_frame c s htouch) (press_effect_of_idle ?_)
    rintro rfl
    exact htouch (by simp [touches])

/-- Settles O6: cards keep to their ranges along every command, and with them the pitches that the generator takes. -/
theorem stepKeepsTravelUnit : Obligations.StepKeepsTravelUnit := by
  unfold Obligations.StepKeepsTravelUnit
  intro s t hcards htravel hstep
  refine (step_keeps (P := fun s => s.CardsSound ∧ s.TravelSound) (fun _ _ h => h) (fun s h => ?_) (fun _ _ _ h => h)
    (fun c s h => ⟨cardsSound_effect c s h.1, travelSound_effect c s h.1 h.2⟩) s t ⟨hcards, htravel⟩ hstep).2
  unfold State.passMillisecond
  split <;> exact h

end Sys2Proof.Machine
end

section
/-! The zones of a strand: what keeps a closed-zone list and an open-zone table sound (R102 to R109, R116, R117). -/

namespace Sys2Proof.Machine

/-- A zone that a strand with its last cut at `cut` may hold: not empty, and above the cut (R106). -/
def HeldZone (cut : Int) (z : ClosedZone) : Prop := z.start < z.finish ∧ cut ≤ z.start

theorem HeldZone.join {cut : Int} {a b : ClosedZone} (ha : HeldZone cut a) (hb : HeldZone cut b) : HeldZone cut (joinZones a b) := by
  obtain ⟨ha, hac⟩ := ha
  obtain ⟨hb, hbc⟩ := hb
  simp only [HeldZone, joinZones]
  omega

theorem HeldZone.foldl {cut : Int} (zs : List ClosedZone) {a : ClosedZone} (ha : HeldZone cut a) (h : ∀ z ∈ zs, HeldZone cut z) :
    HeldZone cut (zs.foldl joinZones a) := by
  induction zs generalizing a with
  | nil => exact ha
  | cons z zs ih => exact ih (ha.join (h z (by simp))) fun y hy => h y (by simp [hy])

/-- A closed-zone list above a cut: ordered, at most 48 entries, each held (R106). -/
structure ListSound (cut : Int) (zs : List ClosedZone) : Prop where
  ordered : Machine.ordered zs
  places  : zs.length ≤ 48
  held    : ∀ z ∈ zs, HeldZone cut z

/-- An open-zone table above a cut (R102). -/
structure TableSound (cut : Int) (ds : Vector (Option OpenDimension) 32) (bs : Vector (Option OpenBlind) 32) : Prop where
  dimensions : ∀ (f : Fin 32) o, ds[f] = some o → cut ≤ o.start
  blinds     : ∀ (f : Fin 32) o, bs[f] = some o → cut ≤ o.start

/-- What the tracker holds of a strand's zones is sound (R102, R106). -/
structure ZonesSound (st : Strand) : Prop where
  list  : ListSound st.lastCut st.closed
  table : TableSound st.lastCut st.dimensions st.blinds

theorem zonesSound_iff (st : Strand) : ZonesSound st ↔ st.listSound ∧ st.tableSound :=
  ⟨fun ⟨⟨ho, hp, hh⟩, ⟨hd, hb⟩⟩ => ⟨⟨ho, hp, hh⟩, hd, hb⟩, fun ⟨⟨ho, hp, hh⟩, hd, hb⟩ => ⟨⟨ho, hp, hh⟩, ⟨hd, hb⟩⟩⟩

theorem ListSound.nil (cut : Int) : ListSound cut [] := ⟨List.Pairwise.nil, Nat.zero_le _, by simp⟩

theorem ListSound.filter {cut : Int} {zs : List ClosedZone} (h : ListSound cut zs) (p : ClosedZone → Bool) :
    ListSound cut (zs.filter p) :=
  ⟨filter_ordered p h.ordered, Nat.le_trans (List.length_filter_le p zs) h.places, fun z hz => h.held z (List.mem_filter.mp hz).1⟩

theorem TableSound.empty (cut : Int) : TableSound cut (Vector.replicate 32 none) (Vector.replicate 32 none) :=
  ⟨by simp, by simp⟩

theorem TableSound.setDimension {cut : Int} {ds : Vector (Option OpenDimension) 32} {bs : Vector (Option OpenBlind) 32}
    (h : TableSound cut ds bs) (f : Fin 32) {o : Option OpenDimension} (ho : ∀ x, o = some x → cut ≤ x.start) :
    TableSound cut (setAt ds f o) bs :=
  ⟨fun g => forall_setAt (P := fun _ (o : Option OpenDimension) => ∀ x, o = some x → cut ≤ x.start) h.dimensions ho g, h.blinds⟩

theorem TableSound.setBlind {cut : Int} {ds : Vector (Option OpenDimension) 32} {bs : Vector (Option OpenBlind) 32}
    (h : TableSound cut ds bs) (f : Fin 32) {o : Option OpenBlind} (ho : ∀ x, o = some x → cut ≤ x.start) :
    TableSound cut ds (setAt bs f o) :=
  ⟨h.dimensions, fun g => forall_setAt (P := fun _ (o : Option OpenBlind) => ∀ x, o = some x → cut ≤ x.start) h.blinds ho g⟩

theorem addZone_of_room {st : Strand} {z : ClosedZone} (h : st.closed.length < 48) :
    st.addZone z = { strand := { st with closed := insertZone z st.closed }, late := false, coarsened := false } :=
  if_neg (by rw [insertZone_length]; exact Nat.not_lt.mpr h)

theorem addZone_of_full {st : Strand} {z : ClosedZone} (h : 48 ≤ st.closed.length) :
    st.addZone z = { strand := { st with closed := coarsen (insertZone z st.closed) }, late := false, coarsened := true } :=
  if_pos (by rw [insertZone_length]; exact Nat.lt_succ_of_le h)

/-- A held zone put into the list, with a coarsening where the list would hold 49 (R106, R108). -/
theorem ListSound.addZone {st : Strand} {z : ClosedZone} (h : ListSound st.lastCut st.closed) (hz : HeldZone st.lastCut z) :
    ListSound st.lastCut (st.addZone z).strand.closed := by
  have hordered := insertZone_ordered (z := z) h.ordered
  have hheld : ∀ y ∈ insertZone z st.closed, HeldZone st.lastCut y := fun y hy => by
    obtain rfl | hy := mem_insertZone.mp hy
    · exact hz
    · exact h.held y hy
  have hlength := insertZone_length z st.closed
  have hplaces := h.places
  by_cases hfull : 48 ≤ st.closed.length
  · rw [addZone_of_full hfull]
    have hcoarse := coarsen_length (zs := insertZone z st.closed) (by omega)
    exact ⟨coarsen_ordered hordered, show (coarsen _).length ≤ 48 by omega, coarsen_all (fun a b ha hb => ha.join hb) hheld⟩
  · rw [addZone_of_room (by omega)]
    exact ⟨hordered, show (insertZone z st.closed).length ≤ 48 by omega, hheld⟩

theorem addZone_rest (z : ClosedZone) (st : Strand) : (st.addZone z).strand = { st with closed := (st.addZone z).strand.closed } := by
  by_cases hfull : 48 ≤ st.closed.length
  · rw [addZone_of_full hfull]
  · rw [addZone_of_room (by omega)]

theorem ZonesSound.withClosed {st : Strand} (h : ZonesSound st) {zs : List ClosedZone} (hz : ListSound st.lastCut zs) :
    ZonesSound { st with closed := zs } := ⟨hz, h.table⟩

theorem ZonesSound.addZone {st : Strand} {z : ClosedZone} (h : ZonesSound st) (hz : HeldZone st.lastCut z) :
    ZonesSound (st.addZone z).strand := by
  rw [addZone_rest]
  exact h.withClosed (h.list.addZone hz)

/-- A held zone merged with those within the merge gap, or inserted (R106, R107): merging leaves no more entries than before. -/
theorem ZonesSound.mergeZone {st : Strand} {z : ClosedZone} (gap : Nat) (h : ZonesSound st) (hz : HeldZone st.lastCut z) :
    ZonesSound (st.mergeZone gap z).strand := by
  unfold Strand.mergeZone
  split
  · exact h.addZone hz
  · next y ys hmerged =>
    have hmem : ∀ x ∈ y :: ys, HeldZone st.lastCut x := fun x hx => h.list.held x (List.mem_filter.mp (hmerged ▸ hx)).1
    have hjoined : HeldZone st.lastCut ((ys ++ [z]).foldl joinZones y) := by
      refine HeldZone.foldl _ (hmem y (by simp)) fun x hx => ?_
      obtain hx | hx := List.mem_append.mp hx
      · exact hmem x (by simp [hx])
      · exact List.mem_singleton.mp hx ▸ hz
    have hrest := h.list.filter fun y => !mergesWith gap z y
    have hcount := List.length_eq_countP_add_countP (mergesWith gap z) (l := st.closed)
    simp only [List.countP_eq_length_filter, hmerged, List.length_cons, Bool.not_eq_true, Bool.decide_eq_false] at hcount
    have hplaces := h.list.places
    refine h.withClosed ⟨insertZone_ordered hrest.ordered, ?_, fun x hx => ?_⟩
    · rw [insertZone_length]
      omega
    · obtain rfl | hx := mem_insertZone.mp hx
      · exact hjoined
      · exact hrest.held x hx

theorem ZonesSound.endZone {st : Strand} {z : ClosedZone} (c : Card) (h : ZonesSound st) (hz : st.lastCut ≤ z.start) :
    ZonesSound (st.endZone c z).strand := by
  unfold Strand.endZone
  split
  · exact h
  · next hopen => exact h.mergeZone _ ⟨by omega, hz⟩

theorem ZonesSound.closeZone {st : Strand} (c : Card) (e : ZoneClose) (h : ZonesSound st) : ZonesSound (st.closeZone c e).strand := by
  unfold Strand.closeZone
  split
  · exact h
  · split
    · split
      · exact h
      · next o ho =>
        have hemptied : ZonesSound { st with dimensions := setAt st.dimensions e.feature none } :=
          ⟨h.list, h.table.setDimension _ fun x hx => by cases hx⟩
        exact hemptied.endZone c (h.table.dimensions _ o ho)
    · split
      · exact h
      · next o ho =>
        have hemptied : ZonesSound { st with blinds := setAt st.blinds e.feature none } :=
          ⟨h.list, h.table.setBlind _ fun x hx => by cases hx⟩
        exact hemptied.endZone c (h.table.blinds _ o ho)

theorem ZonesSound.openZone {st : Strand} (e : ZoneOpen) (h : ZonesSound st) : ZonesSound (st.openZone e).strand := by
  unfold Strand.openZone
  split
  · exact h
  · split
    · exact h
    · split
      · split
        · next o ho => exact ⟨h.list, h.table.setDimension _ fun x hx => Option.some.inj hx ▸ h.table.dimensions _ o ho⟩
        · exact ⟨h.list, h.table.setDimension _ fun x hx => Option.some.inj hx ▸ Int.le_max_right _ _⟩
      · split
        · exact h
        · exact ⟨h.list, h.table.setBlind _ fun x hx => Option.some.inj hx ▸ Int.le_max_right _ _⟩

theorem ZonesSound.updateZone {st : Strand} (e : ZoneUpdate) (h : ZonesSound st) : ZonesSound (st.updateZone e) := by
  unfold Strand.updateZone
  split
  · next o _ ho => exact ⟨h.list, h.table.setDimension _ fun x hx => Option.some.inj hx ▸ h.table.dimensions _ o ho⟩
  · exact h

/-- A strand that keeps its zones and its last cut keeps them sound. -/
theorem ZonesSound.of_eq {st st' : Strand} (h : ZonesSound st) (hcut : st'.lastCut = st.lastCut) (hclosed : st'.closed = st.closed)
    (hd : st'.dimensions = st.dimensions) (hb : st'.blinds = st.blinds) : ZonesSound st' := by
  obtain ⟨hlist, htable⟩ := h
  rw [← hcut, ← hclosed] at hlist
  rw [← hcut, ← hd, ← hb] at htable
  exact ⟨hlist, htable⟩

theorem ZonesSound.takeScan {st : Strand} (e : ScanEvent) (h : ZonesSound st) : ZonesSound (st.takeScan e).strand := by
  unfold Strand.takeScan
  split
  · exact h
  · split
    · exact h
    · exact h.of_eq rfl rfl rfl rfl

/-- A predicted zone that a strand admits is held once it is clipped to the last cut (R109). -/
theorem heldZone_predicted {st : Strand} {start finish : Int} (cls : ZoneClass) (severity : Severity) (billet : Option Nat)
    (h : st.admits start finish = true) : HeldZone st.lastCut (predictedZone cls severity billet start finish st) := by
  have habove : st.lastCut < predictedEnd start finish := of_decide_eq_true h
  have hlong : start < predictedEnd start finish := by
    unfold predictedEnd
    split <;> omega
  simp only [HeldZone, predictedZone, Strand.clip]
  omega

theorem ZonesSound.offer {st : Strand} (cls : ZoneClass) (severity : Severity) (billet : Option Nat) (start finish : Int)
    (h : ZonesSound st) : ZonesSound (st.offer cls severity billet start finish).strand := by
  unfold Strand.offer
  split
  · next hadmits =>
    have hnumbered : ZonesSound { st with nextZone := nextZoneNumber st.nextZone } := h.of_eq rfl rfl rfl rfl
    exact hnumbered.addZone (heldZone_predicted (st := st) cls severity billet hadmits)
  · exact h

theorem ZonesSound.join {st : Strand} (line : LineSection) (p : Int) (h : ZonesSound st) : ZonesSound (st.join line p).strand := by
  simp only [Strand.join]
  split
  · exact h
  · split
    · have hjoined : ZonesSound { st with billet := bump16 st.billet } := h.of_eq rfl rfl rfl rfl
      exact hjoined.offer _ _ _ _ _
    · exact h

theorem ZonesSound.halt {st : Strand} (line : LineSection) (p : Int) (h : ZonesSound st) : ZonesSound (st.halt line p).strand := by
  unfold Strand.halt
  split
  · exact h
  · exact h.offer _ _ _ _ _

theorem ZonesSound.runEnd {st : Strand} (p : Int) (h : ZonesSound st) : ZonesSound (st.runEnd p) := by
  unfold Strand.runEnd
  split
  · exact ⟨h.list.filter _, h.table⟩
  · exact h

theorem ZonesSound.ended (st : Strand) : ZonesSound st.ended := ⟨.nil _, .empty _⟩

theorem ZonesSound.fresh (state : StrandState) (billet : Nat) : ZonesSound (.fresh state billet) := ⟨.nil _, .empty _⟩

theorem ZonesSound.follow {st : Strand} (count : Nat) (i : Fin 4) (h : ZonesSound st) : ZonesSound (st.follow count i) := by
  unfold Strand.follow
  split
  · exact h.of_eq rfl rfl rfl rfl
  · exact h

/-- What a length leaves of the closed zones: those that reach above the cut, each from the cut on (R117). -/
theorem trimClosed_eq (upper : Int) (zs : List ClosedZone) : trimClosed upper zs =
    (zs.filter fun z => decide (upper < z.finish ∨ upper ≤ z.start)).map fun z => { z with start := max z.start upper } := by
  induction zs with
  | nil => rfl
  | cons z zs ih =>
      simp only [trimClosed] at ih ⊢
      rw [List.filterMap_cons, List.filter_cons, ih]
      by_cases hstart : upper ≤ z.start
      · simp [hstart, Int.max_eq_left hstart]
      · by_cases hfinish : z.finish ≤ upper
        · simp [hstart, hfinish, Int.not_lt.mpr hfinish]
        · simp [hstart, hfinish, Int.not_le.mp hfinish, Int.max_eq_right (Int.le_of_lt (Int.not_le.mp hstart))]

theorem ListSound.trim {cut : Int} {zs : List ClosedZone} (upper : Int) (h : ListSound cut zs) : ListSound upper (trimClosed upper zs) := by
  rw [trimClosed_eq]
  have hkept := h.filter fun z => decide (upper < z.finish ∨ upper ≤ z.start)
  refine ⟨?_, by simpa using hkept.places, fun z hz => ?_⟩
  · refine List.pairwise_map.mpr (hkept.ordered.imp fun hab => ?_)
    simp only
    omega
  · obtain ⟨y, hy, rfl⟩ := List.mem_map.mp hz
    have hheld := (hkept.held y hy).1
    have habove := (List.mem_filter.mp hy).2
    simp only [decide_eq_true_eq] at habove
    simp only [HeldZone]
    omega

theorem ZonesSound.advance {st : Strand} (c : Card) (upper : Int) (h : ZonesSound st) : ZonesSound (st.advance c upper) := by
  refine ⟨h.list.trim upper, fun f o ho => ?_, fun f o ho => ?_⟩
  · have hmapped : (splitDimensions upper st.dimensions)[f] = some o := ho
    simp only [splitDimensions, Fin.getElem_fin, Vector.getElem_ofFn, Option.map_eq_some_iff] at hmapped
    obtain ⟨x, -, rfl⟩ := hmapped
    exact Int.le_max_right _ _
  · have hmapped : (splitBlinds upper st.blinds)[f] = some o := ho
    simp only [splitBlinds, Fin.getElem_fin, Vector.getElem_ofFn, Option.map_eq_some_iff] at hmapped
    obtain ⟨x, -, rfl⟩ := hmapped
    exact Int.le_max_right _ _

end Sys2Proof.Machine
end

section
/-! Every strand's zones along every command (R102 to R118). -/

namespace Sys2Proof.Machine

/-- Every strand's zones are sound. -/
def TrackSoundly (s : State) : Prop := ∀ i : Fin 4, ZonesSound s.tracker.strands[i]

theorem trackSound_iff (s : State) : s.TrackSound ↔ TrackSoundly s := forall_congr' fun _ => (zonesSound_iff _).symm

theorem foldl_keeps {α β : Type} {P : α → Prop} {f : α → β → α} (h : ∀ s x, P s → P (f s x)) (xs : List β) {s : α} (hs : P s) :
    P (xs.foldl f s) := by
  induction xs generalizing s with
  | nil => exact hs
  | cons x xs ih => exact ih (h s x hs)

theorem TrackSoundly.of_strands {s t : State} (h : TrackSoundly s) (ht : t.tracker.strands = s.tracker.strands) : TrackSoundly t := by
  intro i
  rw [ht]
  exact h i

theorem TrackSoundly.putStrand {s t : State} (h : TrackSoundly s) {i : Fin 4} {st : Strand}
    (ht : t.tracker.strands = setAt s.tracker.strands i st) (hst : ZonesSound st) : TrackSoundly t := by
  intro j
  rw [ht]
  exact forall_setAt (P := fun _ st => ZonesSound st) h hst j

theorem TrackSoundly.ofFn {t : State} {f : Fin 4 → Strand} (ht : t.tracker.strands = Vector.ofFn f) (hf : ∀ i, ZonesSound (f i)) :
    TrackSoundly t := by
  intro i
  rw [ht]
  simpa using hf i

theorem TrackSoundly.formLength {s : State} (o : Origin) (i : Fin 4) (upper : Int) (h : TrackSoundly s) :
    TrackSoundly (s.formLength o i upper) := h.putStrand rfl ((h i).advance _ _)

theorem TrackSoundly.finalLength {s : State} (o : Origin) (i : Fin 4) (at' : Int) (h : TrackSoundly s) :
    TrackSoundly (s.finalLength o i at') := by
  simp only [State.finalLength]
  split
  · exact h.formLength o i _
  · exact h

theorem TrackSoundly.endStrand {s : State} (i : Fin 4) (h : TrackSoundly s) : TrackSoundly (s.endStrand i) := by
  simp only [State.endStrand]
  split
  · exact h.putStrand rfl (.ended _)
  · exact h.putStrand rfl (.ended _)

theorem TrackSoundly.cutStrand {s : State} (c : Int) (i : Fin 4) (h : TrackSoundly s) : TrackSoundly (s.cutStrand c i) := by
  simp only [State.cutStrand]
  split
  · have hformed : TrackSoundly (if s.tracker.strands[i].formsLength c then s.formLength .cut i (cutUpper s.tracker.strands[i] c) else s) := by
      split
      · exact h.formLength _ _ _
      · exact h
    split
    · exact hformed.endStrand i
    · exact hformed
  · exact h

theorem ZonesSound.markLost {st : Strand} (h : ZonesSound st) : ZonesSound (if st.active then { st with cutLost := true } else st) := by
  split
  · exact h.of_eq rfl rfl rfl rfl
  · exact h

theorem TrackSoundly.markLost {s t : State} (h : TrackSoundly s) (ht : t.tracker.strands = s.tracker.markLost.strands) :
    TrackSoundly t := .ofFn ht fun i => (h i).markLost

theorem TrackSoundly.takeCut {s : State} (h : TrackSoundly s) : TrackSoundly s.takeCut := by
  cases hcuts : s.runout.cuts with
  | nil => rwa [State.takeCut_of_nil hcuts]
  | cons travel rest =>
      have hready : TrackSoundly s.takeDueReports := by
        unfold State.takeDueReports
        split
        · exact h.markLost rfl
        · exact h
      have hcut : TrackSoundly (s.takeDueReports.cutStrands (sawCoordinate s.store.card.line travel)) := by
        rw [State.cutStrands]
        exact foldl_keeps (fun _ i h => TrackSoundly.cutStrand _ i h) strandsInOrder hready
      rw [State.takeCut_of_cons hcuts rfl]
      refine TrackSoundly.of_strands ?_ (State.strands_leaveCut _ _)
      split
      · exact hcut.of_strands (by rw [State.tracker_applyPending])
      · exact hcut

theorem TrackSoundly.eachStrand {s : State} {f : Strand → Tracked} (h : TrackSoundly s)
    (hf : ∀ st, ZonesSound st → ZonesSound (f st).strand) : TrackSoundly (s.eachStrand f) := by
  rw [State.eachStrand]
  exact foldl_keeps (fun s i h => TrackSoundly.putStrand h rfl (hf _ (h i))) strandsInOrder h

theorem TrackSoundly.closeStrand {s : State} (o : Origin) (at' : Int) (i : Fin 4) (h : TrackSoundly s) :
    TrackSoundly (s.closeStrand o at' i) := by
  simp only [State.closeStrand]
  split
  · exact (h.finalLength o i at').putStrand rfl (.ended _)
  · exact h

theorem TrackSoundly.runClose {s : State} (h : TrackSoundly s) : TrackSoundly s.runClose.1 := by
  unfold State.runClose
  split
  · exact h
  · refine TrackSoundly.of_strands ?_ (State.strands_returnToIdle _)
    exact foldl_keeps (fun _ i h => TrackSoundly.closeStrand _ _ i h) strandsInOrder h

theorem TrackSoundly.follow {s t : State} (h : TrackSoundly s) {old new : Nat} (ht : t.tracker = s.tracker.follow old new) :
    TrackSoundly t := by
  unfold Tracker.follow at ht
  split at ht
  · exact h.of_strands (by rw [ht])
  · exact .ofFn (by rw [ht]) fun i => (h i).follow new i

theorem TrackSoundly.takeEvent {s : State} {e : TrackerEvent} {k : State → State} (h : TrackSoundly s)
    (hk : ∀ t, TrackSoundly t → TrackSoundly (k t)) : TrackSoundly (s.takeEvent e k) := by
  obtain hstill | ⟨-, htaken⟩ := s.takeEvent_cases e k
  · rwa [hstill]
  · rw [htaken]
    exact hk _ h

theorem trackSoundly_fresh {t : State} {f : Fin 4 → StrandState} {n : Nat}
    (h : t.tracker.strands = Vector.ofFn fun i => Strand.fresh (f i) n) : TrackSoundly t :=
  .ofFn h fun _ => .fresh _ _

theorem trackSoundly_effect (c : Instr) (s : State) (h : TrackSoundly s) : TrackSoundly (effect c s) := by
  by_cases htouch : .tracker ∈ touches c
  · cases c
    case powerOn straps high => exact trackSoundly_fresh rfl
    case cutEdge micros =>
      simp only [effect, State.latchCut]
      split
      · exact h
      · split <;> exact h
    case lostCutReport =>
      refine h.markLost ?_
      simp only [effect, State.takeLostCut, State.tracker_withTracker]
      split <;> rfl
    case takeCut => exact h.takeCut
    case scanEvent e => exact h.takeEvent fun t ht => ht.putStrand rfl ((ht _).takeScan e)
    case zoneOpenEvent e => exact h.takeEvent fun t ht => ht.putStrand rfl ((ht _).openZone e)
    case zoneUpdateEvent e => exact h.takeEvent fun t ht => ht.putStrand rfl ((ht _).updateZone e)
    case zoneCloseEvent e => exact h.takeEvent fun t ht => ht.putStrand rfl ((ht _).closeZone _ e)
    case replySent =>
      simp only [effect]
      fun_cases State.sendReply s
      case case2 => exact trackSoundly_fresh rfl
      all_goals exact h
    case setIdentity die revision alloy strands =>
      simp only [effect]
      fun_cases State.setIdentity die revision alloy strands s
      case case3 => exact h.follow rfl
      all_goals exact h
    case bankLoad b =>
      simp only [effect]
      fun_cases State.bankLoad b s
      case case6 => exact h.follow (State.tracker_loadBank _ s)
      all_goals exact h
    case runStart =>
      simp only [effect]
      fun_cases State.runStart s
      case case4 => exact trackSoundly_fresh rfl
      all_goals exact h
    case billetJoin =>
      simp only [effect, State.billetJoin]
      split
      · exact h.eachStrand fun st hst => hst.join _ _
      · exact h
    case stop =>
      simp only [effect, State.stop]
      split
      · exact TrackSoundly.eachStrand (s := s.withPress .stopped) h fun st hst => hst.halt _ _
      · exact h
      · exact h
    case resume =>
      simp only [effect, State.resume]
      split <;> exact h
    case runEnd =>
      simp only [effect, State.runEnd]
      split
      · exact .ofFn rfl fun i => (h i).runEnd _
      · exact h
    case runClose => exact h.runClose
    case withdraw i =>
      simp only [effect]
      fun_cases State.withdraw i s
      case case2 => exact (h.finalLength _ _ _).endStrand _
      all_goals exact h
    all_goals simp [touches] at htouch
  · exact h.of_strands (congrArg Tracker.strands (effect_frame c s htouch))

/-- Settles O9: each thing that the tracker does to a strand keeps its zones sound. -/
theorem stepKeepsTrack : Obligations.StepKeepsTrack := by
  unfold Obligations.StepKeepsTrack
  intro s t h hstep
  rw [trackSound_iff] at h ⊢
  refine step_keeps (P := TrackSoundly) (fun _ _ h => h) (fun s h => ?_) (fun _ _ _ h => h) trackSoundly_effect s t h hstep
  unfold State.passMillisecond
  split <;> exact h

end Sys2Proof.Machine
end

section
/-! The press is IDLE exactly while no strand is active, and then no limits are pending (R91 to R101, R140). -/

namespace Sys2Proof.Machine

/-! ### Which strands stay active -/

@[simp] theorem active_takeScan (e : ScanEvent) (st : Strand) : (st.takeScan e).strand.active = st.active := by
  unfold Strand.takeScan
  split
  · rfl
  · split
    · rfl
    · next hactive _ => cases hstate : st.state <;> simp_all [Strand.active, Strand.quiet]

@[simp] theorem active_openZone (e : ZoneOpen) (st : Strand) : (st.openZone e).strand.active = st.active := by
  unfold Strand.openZone
  repeat' split
  all_goals rfl

@[simp] theorem active_updateZone (e : ZoneUpdate) (st : Strand) : (st.updateZone e).active = st.active := by
  unfold Strand.updateZone
  split <;> rfl

@[simp] theorem active_addZone (z : ClosedZone) (st : Strand) : (st.addZone z).strand.active = st.active := by
  rw [addZone_rest]
  rfl

@[simp] theorem active_mergeZone (gap : Nat) (z : ClosedZone) (st : Strand) : (st.mergeZone gap z).strand.active = st.active := by
  unfold Strand.mergeZone
  split
  · exact active_addZone z st
  · rfl

@[simp] theorem active_endZone (c : Card) (z : ClosedZone) (st : Strand) : (st.endZone c z).strand.active = st.active := by
  unfold Strand.endZone
  split
  · rfl
  · exact active_mergeZone _ z st

@[simp] theorem active_closeZone (c : Card) (e : ZoneClose) (st : Strand) : (st.closeZone c e).strand.active = st.active := by
  unfold Strand.closeZone
  repeat' split
  all_goals first | rfl | exact active_endZone _ _ _

@[simp] theorem active_offer (cls : ZoneClass) (severity : Severity) (billet : Option Nat) (start finish : Int) (st : Strand) :
    (st.offer cls severity billet start finish).strand.active = st.active := by
  unfold Strand.offer
  split
  · exact active_addZone _ _
  · rfl

@[simp] theorem active_join (line : LineSection) (p : Int) (st : Strand) : (st.join line p).strand.active = st.active := by
  simp only [Strand.join]
  split
  · rfl
  · split
    · exact active_offer _ _ _ _ _ _
    · rfl

@[simp] theorem active_halt (line : LineSection) (p : Int) (st : Strand) : (st.halt line p).strand.active = st.active := by
  unfold Strand.halt
  split
  · rfl
  · exact active_offer _ _ _ _ _ _

@[simp] theorem active_runEnd (p : Int) (st : Strand) : (st.runEnd p).active = st.active := by
  unfold Strand.runEnd
  split
  · next h => cases hstate : st.state <;> simp_all [Strand.active, Strand.extruding]
  · rfl

@[simp] theorem active_advance (c : Card) (upper : Int) (st : Strand) : (st.advance c upper).active = st.active := rfl

@[simp] theorem active_ended (st : Strand) : st.ended.active = false := rfl

@[simp] theorem active_follow (count : Nat) (i : Fin 4) (st : Strand) : (st.follow count i).active = st.active := by
  unfold Strand.follow
  split
  · next h => obtain h | h := h <;> split <;> simp only [Strand.active, h] <;> rfl
  · rfl

@[simp] theorem active_markLost (st : Strand) : (if st.active then { st with cutLost := true } else st).active = st.active := by
  split <;> rfl

theorem active_of_takesCut {c : Int} {st : Strand} (h : st.takesCut c = true) : st.active = true := by
  simp only [Strand.takesCut, Bool.and_eq_true, Bool.or_eq_true, beq_iff_eq] at h
  obtain ⟨h | h, -⟩ := h <;> simp [Strand.active, h]

/-! ### The invariant -/

/-- No limits are pending. -/
def NonePending (s : State) : Prop := ∀ f, s.store.pendingLimits[(f : Fin 32)] = none

/-- The two states have the same strands active. -/
def SameActive (s t : State) : Prop := ∀ i, t.tracker.strands[(i : Fin 4)].active = s.tracker.strands[i].active

theorem SameActive.of_strands {s t : State} (h : t.tracker.strands = s.tracker.strands) : SameActive s t := fun i => by rw [h]

theorem SameActive.putStrand {s t : State} {i : Fin 4} {st : Strand} (h : t.tracker.strands = setAt s.tracker.strands i st)
    (hst : st.active = s.tracker.strands[i].active) : SameActive s t := by
  intro j
  rw [h, setAt_get]
  split
  · next hj => rw [hj, hst]
  · rfl

theorem SameActive.ofFn {s t : State} {f : Fin 4 → Strand} (h : t.tracker.strands = Vector.ofFn f)
    (hf : ∀ i, (f i).active = s.tracker.strands[i].active) : SameActive s t := by
  intro i
  rw [h]
  simpa using hf i

theorem SameActive.trans {s t u : State} (h : SameActive s t) (k : SameActive t u) : SameActive s u := fun i => (k i).trans (h i)

theorem SameActive.foldl {α : Type} {f : State → α → State} (h : ∀ s x, SameActive s (f s x)) (xs : List α) (s : State) :
    SameActive s (xs.foldl f s) := by
  induction xs generalizing s with
  | nil => exact fun _ => rfl
  | cons x xs ih => exact (h s x).trans (ih (f s x))

theorem SameActive.follow {s t : State} {old new : Nat} (ht : t.tracker = s.tracker.follow old new) : SameActive s t := by
  unfold Tracker.follow at ht
  split at ht
  · exact .of_strands (by rw [ht])
  · exact .ofFn (by rw [ht]) fun i => active_follow new i _

theorem SameActive.takeEvent {s : State} {e : TrackerEvent} {k : State → State} (hk : ∀ t, SameActive t (k t)) :
    SameActive s (s.takeEvent e k) := by
  obtain hstill | ⟨-, htaken⟩ := s.takeEvent_cases e k
  · rw [hstill]
    exact fun _ => rfl
  · rw [htaken]
    exact SameActive.trans (t := s.received) (fun _ => rfl) (hk _)

/-- The press and the strands that are active stay; an IDLE press leaves no limits pending where none were. -/
theorem pressSound_of_same {s t : State} (h : s.PressSound) (hpress : t.tracker.press = .idle ↔ s.tracker.press = .idle)
    (hactive : SameActive s t) (hpending : s.tracker.press = .idle → NonePending s → NonePending t) : t.PressSound := by
  obtain ⟨hidle, hnone⟩ := h
  refine ⟨hpress.trans (hidle.trans (forall_congr' fun i => ?_)), fun hp => ?_⟩
  · rw [hactive i]
  · exact hpending (hpress.mp hp) (hnone (hpress.mp hp))

/-- A press that has returned to IDLE with no strand active is sound: the pending limits are applied (R101). -/
theorem pressSound_returnToIdle {s : State} (h : ∀ i, s.tracker.strands[(i : Fin 4)].active = false) : s.returnToIdle.PressSound :=
  ⟨iff_of_true rfl h, fun _ => CardStore.applyPending_empty s.store⟩

theorem pressSound_fresh {t : State} {f : Fin 4 → StrandState} {n : Nat} (hstrands : t.tracker.strands = Vector.ofFn fun i => Strand.fresh (f i) n)
    (hf : ∀ i, f i = .idle ∨ f i = .absent) (hpress : t.tracker.press = .idle)
    (hpending : t.store.pendingLimits = Vector.replicate 32 none) : t.PressSound := by
  refine ⟨iff_of_true hpress fun i => ?_, fun _ f => by rw [hpending]; simp⟩
  rw [hstrands]
  obtain h | h := hf i <;> simp [h, Strand.fresh, Strand.active]

theorem allEnded_iff (t : Tracker) : t.allEnded = true ↔ ∀ i, t.strands[(i : Fin 4)].active = false := by
  have hall : ∀ i : Fin 4, i ∈ strandsInOrder := by decide
  simp only [Tracker.allEnded, List.all_eq_true, Bool.not_eq_true', hall, true_implies]

/-- The end of an active strand: with the last of them the press returns to IDLE (R93, R101). -/
theorem pressSound_endStrand {s : State} {i : Fin 4} (h : s.PressSound) (hi : s.tracker.strands[i].active = true) :
    (s.endStrand i).PressSound := by
  have hrunning : s.tracker.press ≠ .idle := fun hp => by
    rw [h.1.mp hp i] at hi
    cases hi
  simp only [State.endStrand]
  split
  · next hended => exact pressSound_returnToIdle ((allEnded_iff _).mp hended)
  · next hleft => exact ⟨iff_of_false hrunning (mt (allEnded_iff _).mpr hleft), fun hp => absurd hp hrunning⟩

theorem sameActive_formLength (o : Origin) (i : Fin 4) (upper : Int) (s : State) : SameActive s (s.formLength o i upper) :=
  .putStrand rfl (active_advance _ _ _)

theorem pressSound_formLength {s : State} (h : s.PressSound) (o : Origin) (i : Fin 4) (upper : Int) :
    (s.formLength o i upper).PressSound := pressSound_of_same h Iff.rfl (sameActive_formLength o i upper s) fun _ hn => hn

theorem pressSound_cutStrand {s : State} (c : Int) (i : Fin 4) (h : s.PressSound) : (s.cutStrand c i).PressSound := by
  simp only [State.cutStrand]
  split
  · next htakes =>
    split
    · split
      · refine pressSound_endStrand (pressSound_formLength h _ _ _) ?_
        rw [sameActive_formLength, active_of_takesCut htakes]
      · exact pressSound_endStrand h (active_of_takesCut htakes)
    · split
      · exact pressSound_formLength h _ _ _
      · exact h
  · exact h

theorem sameActive_takeDueReports (s : State) : SameActive s s.takeDueReports := by
  unfold State.takeDueReports
  split
  · exact .ofFn rfl fun i => active_markLost _
  · exact fun _ => rfl

theorem pressSound_applyPending {s : State} (h : s.PressSound) : s.applyPending.PressSound :=
  ⟨by rw [State.tracker_applyPending]; exact h.1, fun _ => CardStore.applyPending_empty s.store⟩

theorem pressSound_takeCut {s : State} (h : s.PressSound) : s.takeCut.PressSound := by
  cases hcuts : s.runout.cuts with
  | nil => rwa [State.takeCut_of_nil hcuts]
  | cons travel rest =>
      have hready : s.takeDueReports.PressSound := by
        refine pressSound_of_same h ?_ (sameActive_takeDueReports s) fun _ hn => ?_
        · unfold State.takeDueReports
          split <;> rfl
        · unfold State.takeDueReports
          split <;> exact hn
      have hcut : (s.takeDueReports.cutStrands (sawCoordinate s.store.card.line travel)).PressSound := by
        rw [State.cutStrands]
        exact foldl_keeps (fun _ i h => pressSound_cutStrand _ i h) strandsInOrder hready
      rw [State.takeCut_of_cons hcuts rfl]
      refine pressSound_of_same ?_ (by rw [State.press_leaveCut]) (.of_strands (State.strands_leaveCut _ _)) fun _ hn f => by
        rw [State.store_leaveCut]
        exact hn f
      split
      · exact pressSound_applyPending hcut
      · exact hcut

theorem sameActive_finalLength (o : Origin) (i : Fin 4) (at' : Int) (s : State) : SameActive s (s.finalLength o i at') := by
  simp only [State.finalLength]
  split
  · exact sameActive_formLength _ _ _ _
  · exact fun _ => rfl

theorem pressSound_withdraw {s : State} (b : Byte) (h : s.PressSound) : (s.withdraw b).1.PressSound := by
  fun_cases State.withdraw b s
  case case2 i _ _ hactive =>
    have hfinal : (s.finalLength .withdrawn i s.atHead).PressSound :=
      pressSound_of_same h (by rw [State.press_finalLength]) (sameActive_finalLength _ _ _ _) fun _ hn f => by
        rw [State.store_finalLength]
        exact hn f
    exact pressSound_endStrand hfinal ((sameActive_finalLength _ _ _ _ i).trans hactive)
  all_goals exact h

/-- After RUN_CLOSE's part of a strand that strand is not active. -/
theorem active_closeStrand_same (o : Origin) (at' : Int) (s : State) (i : Fin 4) :
    (s.closeStrand o at' i).tracker.strands[i].active = false := by
  unfold State.closeStrand
  split
  · simp
  · next h => simpa using h

theorem active_closeStrand_of_inactive (o : Origin) (at' : Int) (s : State) (i j : Fin 4) (h : s.tracker.strands[j].active = false) :
    (s.closeStrand o at' i).tracker.strands[j].active = false := by
  obtain rfl | (hij : i ≠ j) := Decidable.em (i = j)
  · exact active_closeStrand_same o at' s i
  · fun_cases State.closeStrand
    · rw [State.tracker_withStrand, Tracker.strands_putStrand, setAt_get, if_neg hij.symm, sameActive_finalLength]
      exact h
    · exact h

/-- What a step over a list makes of its element, and keeps of the others, holds of every element at the end. -/
theorem foldl_reaches {α β : Type} {P : α → β → Prop} {f : α → β → α} (hset : ∀ s i, P (f s i) i)
    (hkeep : ∀ s i j, P s j → P (f s i) j) (xs : List β) (s : α) {i : β} (hi : i ∈ xs) : P (xs.foldl f s) i := by
  induction xs generalizing s with
  | nil => cases hi
  | cons x xs ih =>
      obtain rfl | hi := List.mem_cons.mp hi
      · exact foldl_keeps (P := fun s => P s i) (fun s x h => hkeep s x i h) xs (hset s i)
      · exact ih (f s x) hi

theorem pressSound_runClose {s : State} (h : s.PressSound) : s.runClose.1.PressSound := by
  unfold State.runClose
  split
  · exact h
  · have hall : ∀ i : Fin 4, i ∈ strandsInOrder := by decide
    exact pressSound_returnToIdle fun i => foldl_reaches (P := fun s (i : Fin 4) => s.tracker.strands[i].active = false)
      (active_closeStrand_same _ _) (active_closeStrand_of_inactive _ _) strandsInOrder s (hall i)

/-- A ready card has a strand (R142). -/
theorem strands_pos_of_ready {c : Card} (h : readiness c = 0) : 0 < c.strands := by
  refine Nat.pos_of_ne_zero fun hzero => ?_
  simp [readiness, hzero] at h

theorem pressSound_runStart {s : State} (h : s.PressSound) : s.runStart.1.PressSound := by
  fun_cases State.runStart s
  case case4 hidle hcheck hready =>
    have hstrands := strands_pos_of_ready (Decidable.not_not.mp hready)
    refine ⟨iff_of_false (by simp [pressReply, State.beginRun]) fun hall => ?_, fun hp => by simp [pressReply, State.beginRun] at hp⟩
    have hfirst := hall 0
    simp [pressReply, State.beginRun, runStrands, Strand.fresh, Strand.active, hstrands] at hfirst
  all_goals exact h

theorem sameActive_eachStrand {f : Strand → Tracked} (hf : ∀ st, (f st).strand.active = st.active) (s : State) :
    SameActive s (s.eachStrand f) := by
  rw [State.eachStrand]
  exact SameActive.foldl (fun s i => .putStrand rfl (hf _)) strandsInOrder s

/-- Limits join the pending list by SET_LIMITS alone. -/
theorem CardStore.Change.nonePending {c : Instr} {x y : CardStore} (hchange : CardStore.Change c x y) (hc : ∀ f r, c ≠ .setLimits f r)
    (h : ∀ f, x.pendingLimits[(f : Fin 32)] = none) : ∀ f, y.pendingLimits[(f : Fin 32)] = none := by
  induction hchange with
  | next _ _ ihx ihy => exact ihy (ihx h)
  | defer x i l hl hsets =>
      obtain ⟨f, r, hfr⟩ := hsets
      exact absurd hfr (hc f r)
  | resume x => rwa [CardStore.pendingLimits_resume]
  | dropPending x => simp [CardStore.dropPending]
  | load x i hv hi hc => simp
  | powerOn x hc => simp [CardStore.powerOn]
  | same => exact h
  | edit x card hcard hheads hthermal => exact h
  | start x i hidle => exact h
  | lock x i l => exact h
  | boot x b => exact h
  | ended x j found hj hend => exact h
  | lost x => exact h

theorem pressSound_setLimits {s : State} (f : Byte) (r : RawLimits) (h : s.PressSound) : (s.setLimits f r).1.PressSound := by
  fun_cases State.setLimits f r s
  case case5 hrunning =>
    refine pressSound_of_same h Iff.rfl (fun _ => rfl) fun hp => ?_
    simp [State.pressIdle, hp] at hrunning
  all_goals exact h

theorem press_stop_iff (s : State) : s.stop.1.tracker.press = .idle ↔ s.tracker.press = .idle := by
  unfold State.stop
  split
  · next hrunning =>
    simp only [pressReply, State.press_eachStrand, hrunning]
    exact iff_of_false (fun hp => by cases hp) fun hp => by cases hp
  · rfl
  · rfl

theorem sameActive_stop (s : State) : SameActive s s.stop.1 := by
  unfold State.stop
  split
  · exact sameActive_eachStrand (active_halt _ _) (s.withPress .stopped)
  · exact fun _ => rfl
  · exact fun _ => rfl

theorem press_resume_iff (s : State) : s.resume.1.tracker.press = .idle ↔ s.tracker.press = .idle := by
  unfold State.resume
  split
  · next hpressing => exact iff_of_false (fun hp => by cases hp) fun hp => by simp [State.pressing, hp] at hpressing
  · rfl

theorem sameActive_resume (s : State) : SameActive s s.resume.1 := by
  unfold State.resume
  split <;> exact fun _ => rfl

theorem press_runEnd_iff (s : State) : s.runEnd.1.tracker.press = .idle ↔ s.tracker.press = .idle := by
  unfold State.runEnd
  split
  · next hpressing => exact iff_of_false (fun hp => by cases hp) fun hp => by simp [State.pressing, hp] at hpressing
  · rfl

theorem sameActive_runEnd (s : State) : SameActive s s.runEnd.1 := by
  unfold State.runEnd
  split
  · exact .ofFn rfl fun i => active_runEnd _ _
  · exact fun _ => rfl

theorem pressSound_effect (c : Instr) (s : State) (h : s.PressSound) : (effect c s).PressSound := by
  by_cases hlimits : ∃ f r, c = .setLimits f r
  · obtain ⟨f, r, rfl⟩ := hlimits
    exact pressSound_setLimits f r h
  have hpending : NonePending s → NonePending (effect c s) :=
    (effect_store c s).nonePending fun f r hc => hlimits ⟨f, r, hc⟩
  have hsame (hpress : (effect c s).tracker.press = .idle ↔ s.tracker.press = .idle) (hactive : SameActive s (effect c s)) :
      (effect c s).PressSound := pressSound_of_same h hpress hactive fun _ => hpending
  have hactive_event {e : TrackerEvent} {k : State → State} (hk : ∀ t, SameActive t (k t)) (hp : ∀ t, (k t).tracker.press = t.tracker.press)
      (he : effect c s = s.takeEvent e k) : (effect c s).PressSound := by
    refine hsame ?_ (he ▸ .takeEvent hk)
    obtain hstill | ⟨-, htaken⟩ := s.takeEvent_cases e k
    · rw [he, hstill]
    · rw [he, htaken, hp, State.tracker_received]
  by_cases htouch : .tracker ∈ touches c
  · cases c
    case powerOn straps high => exact pressSound_fresh rfl (fun i => by split <;> simp) rfl rfl
    case cutEdge micros =>
      simp only [effect, State.latchCut]
      split
      · exact h
      · split <;> exact h
    case lostCutReport =>
      refine hsame ?_ (.ofFn (f := fun i => if s.tracker.strands[i].active then _ else _) ?_ fun i => active_markLost _)
      · simp only [effect, State.takeLostCut, State.tracker_withTracker]
        split <;> rfl
      · simp only [effect, State.takeLostCut, State.tracker_withTracker]
        split <;> rfl
    case takeCut => exact pressSound_takeCut h
    case scanEvent e => exact hactive_event (k := State.takeScan e) (fun t => .putStrand rfl (active_takeScan e _)) (fun t => rfl) rfl
    case zoneOpenEvent e => exact hactive_event (k := State.takeOpen e) (fun t => .putStrand rfl (active_openZone e _)) (fun t => rfl) rfl
    case zoneUpdateEvent e => exact hactive_event (k := State.takeUpdate e) (fun t => .putStrand rfl (active_updateZone e _)) (fun t => rfl) rfl
    case zoneCloseEvent e => exact hactive_event (k := State.takeClose e) (fun t => .putStrand rfl (active_closeZone _ e _)) (fun t => rfl) rfl
    case replySent =>
      simp only [effect]
      fun_cases State.sendReply s
      case case2 => exact pressSound_fresh rfl (fun i => by split <;> simp) rfl rfl
      all_goals exact h
    case setIdentity die revision alloy strands =>
      simp only [effect]
      fun_cases State.setIdentity die revision alloy strands s
      case case3 => exact pressSound_of_same h (by simp [editReply, State.putIdentity]) (.follow rfl) fun _ hn => hn
      all_goals exact h
    case bankLoad b =>
      simp only [effect] at hpending hsame ⊢
      by_cases hload : (s.bankLoad b).1.tracker = s.tracker
      · exact hsame (by rw [hload]) (.of_strands (by rw [hload]))
      · refine hsame ?_ ?_
        all_goals
          revert hload
          fun_cases State.bankLoad b s
        case case6 => exact fun _ => by rw [State.tracker_loadBank, Tracker.press_follow]
        case case6 => exact fun _ => .follow (State.tracker_loadBank _ s)
        all_goals exact fun hload => absurd rfl hload
    case runStart => exact pressSound_runStart h
    case billetJoin =>
      refine hsame ?_ ?_
      all_goals
        simp only [effect, State.billetJoin]
        split
      · simp only [pressReply, State.press_eachStrand]
      · rfl
      · exact sameActive_eachStrand (active_join _ _) s
      · exact fun _ => rfl
    case stop => exact hsame (press_stop_iff s) (sameActive_stop s)
    case resume => exact hsame (press_resume_iff s) (sameActive_resume s)
    case runEnd => exact hsame (press_runEnd_iff s) (sameActive_runEnd s)
    case runClose => exact pressSound_runClose h
    case withdraw i => exact pressSound_withdraw i h
    all_goals simp [touches] at htouch
  · have htracker : (effect c s).tracker = s.tracker := effect_frame c s htouch
    exact hsame (by rw [htracker]) (.of_strands (by rw [htracker]))

/-- Settles O10: strands end and the press returns to IDLE together; limits are set aside outside IDLE alone. -/
theorem stepKeepsPressAndStrands : Obligations.StepKeepsPressAndStrands := by
  unfold Obligations.StepKeepsPressAndStrands
  refine step_keeps (fun _ _ h => h) (fun s h => ?_) (fun _ _ _ h => h) pressSound_effect
  unfold State.passMillisecond
  split <;> exact h

end Sys2Proof.Machine
end

section
/-! The head table follows the working card, and the slots the evaluation in hand, along every command (R35 to R54). -/

namespace Sys2Proof.Machine

/-! ### What edits the head records -/

/-- Only SET_HEAD, BANK_LOAD and POWER_ON put other head records on the working card. -/
theorem CardStore.Change.heads {c : Instr} {x y : CardStore} (h : CardStore.Change c x y) (hset : ∀ head r, c ≠ .setHead head r)
    (hload : ∀ b, c ≠ .bankLoad b) (hpower : ∀ straps high, c ≠ .powerOn straps high) : y.card.heads = x.card.heads := by
  induction h with
  | next _ _ ihx ihy => exact ihy.trans ihx
  | edit x card _ hheads =>
      obtain hheads | ⟨head, r, hc⟩ := hheads
      · exact hheads
      · exact absurd hc (hset head r)
  | load x i _ _ hc =>
      obtain ⟨b, hc⟩ := hc
      exact absurd hc (hload b)
  | powerOn x hc =>
      obtain ⟨straps, high, hc⟩ := hc
      exact absurd hc (hpower straps high)
  | resume x => rw [CardStore.card_resume]
  | _ => rfl

/-! ### The entries of the head table -/

theorem HeadEntry.sound_true_iff (e : HeadEntry) : e.sound true ↔ e.state ≠ .offline ∧ (e.state = .fault → 8 ≤ e.miss)
    ∧ (e.state = .blinded → 8 ≤ e.sparse) ∧ e.miss ≤ 255 ∧ e.sparse ≤ 255 := by
  simp [HeadEntry.sound]

/-- A check result is no part of what makes an entry sound. -/
theorem HeadEntry.sound_check {enabled : Bool} {e : HeadEntry} (h : e.sound enabled) (check : CheckResult) :
    ({ e with check := check } : HeadEntry).sound enabled := h

theorem HeadEntry.sound_unanswered {enabled : Bool} {e : HeadEntry} (h : e.sound enabled) : e.unanswered.sound enabled := by
  unfold HeadEntry.unanswered
  split <;> exact h

theorem HeadEntry.sound_fresh (enabled : Bool) (check : CheckResult) : (HeadEntry.fresh enabled check).sound enabled := by
  cases enabled <;> simp [HeadEntry.sound, HeadEntry.fresh]

theorem HeadEntry.sound_follow {was enabled : Bool} {e : HeadEntry} (h : e.sound was) : (e.follow was enabled).sound enabled := by
  unfold HeadEntry.follow
  split
  · next heq => exact heq ▸ h
  · exact HeadEntry.sound_fresh _ _

theorem HeadEntry.sound_missed {e : HeadEntry} (h : e.sound true) : e.missed.sound true := by
  rw [HeadEntry.sound_true_iff] at h ⊢
  obtain ⟨honline, hfault, hblinded, hmiss, hsparse⟩ := h
  have hbump : bump 255 e.miss 1 ≤ 255 := Nat.min_le_left _ _
  have hgrows : e.miss ≤ bump 255 e.miss 1 := by
    simp only [bump]
    omega
  simp only [HeadEntry.missed]
  split
  · next henters =>
    simp only [HeadEntry.enters, Bool.and_eq_true, decide_eq_true_eq] at henters
    exact ⟨by decide, fun _ => henters.1, fun hb => (by cases hb), hbump, hsparse⟩
  · exact ⟨honline, fun hf => Nat.le_trans (hfault hf) hgrows, hblinded, hbump, hsparse⟩

theorem HeadEntry.sound_accept (e : HeadEntry) (least valid peak : Nat) : (e.accept least valid peak).sound true := by
  have hsparse : (if least ≤ valid then 0 else bump 255 e.sparse 1) ≤ 255 := by
    split
    · exact Nat.zero_le _
    · exact Nat.min_le_left _ _
  rw [HeadEntry.sound_true_iff]
  simp only [HeadEntry.accept]
  generalize (if least ≤ valid then 0 else bump 255 e.sparse 1) = sparse at hsparse
  split
  · next hmany => exact ⟨by decide, fun hf => (by cases hf), fun _ => hmany, Nat.zero_le _, hsparse⟩
  · exact ⟨by decide, fun hf => (by cases hf), fun hb => (by cases hb), Nat.zero_le _, hsparse⟩

/-! ### The head table -/

theorem headsSound_of_eq {s t : State} (h : s.HeadsSound) (hheads : t.scan.heads = s.scan.heads)
    (hcard : t.store.card.heads = s.store.card.heads) : t.HeadsSound := by
  rw [State.HeadsSound, hheads, hcard]
  exact h

theorem headsSound_ofFn {s t : State} {f : Fin 8 → HeadEntry} (hheads : t.scan.heads = Vector.ofFn f)
    (hcard : t.store.card.heads = s.store.card.heads) (hf : ∀ i, (f i).sound s.store.card.heads[i].enabled) : t.HeadsSound := by
  intro i
  rw [hheads, hcard]
  simpa using hf i

theorem headsSound_setAt {s t : State} {i : Fin 8} {e : HeadEntry} (h : s.HeadsSound) (hheads : t.scan.heads = setAt s.scan.heads i e)
    (hcard : t.store.card.heads = s.store.card.heads) (he : e.sound s.store.card.heads[i].enabled) : t.HeadsSound := by
  intro j
  rw [hheads, hcard]
  exact forall_setAt (P := fun j (e : HeadEntry) => e.sound s.store.card.heads[(j : Fin 8)].enabled) h he j

@[simp] theorem State.heads_tryHandOver (s : State) : s.tryHandOver.scan.heads = s.scan.heads := by
  obtain h | ⟨j, k, -, -, h⟩ := s.tryHandOver_cases <;> rw [h]
  rfl

@[simp] theorem State.heads_closeSlot (i : Fin 4) (k : Slot) (s : State) : (s.closeSlot i k).scan.heads = s.scan.heads := by
  rw [State.closeSlot, State.heads_tryHandOver]
  rfl

@[simp] theorem State.heads_takeSlot (i : Fin 4) (manual : Bool) (travel : Nat) (s : State) :
    (s.takeSlot i manual travel).scan.heads = s.scan.heads := by
  simp only [State.takeSlot]
  split
  · rw [State.heads_closeSlot]
    rfl
  · rfl

theorem headsSound_takeSlot {s : State} (h : s.HeadsSound) (i : Fin 4) (manual : Bool) (travel : Nat) :
    (s.takeSlot i manual travel).HeadsSound := headsSound_of_eq h (by simp) (by simp)

theorem headsSound_closeMissing {s : State} (h : s.HeadsSound) (i : Fin 4) (k : Slot) : (s.closeMissing i k).HeadsSound := by
  refine headsSound_ofFn (s := s) (by rw [State.closeMissing, State.heads_closeSlot]; rfl) (by simp) fun j => ?_
  split
  · next hmisses =>
    simp only [Slot.misses, Bool.and_eq_true] at hmisses
    have hj := h j
    rw [hmisses.2] at hj ⊢
    exact HeadEntry.sound_missed hj
  · exact h j

theorem headsSound_forceClose {s : State} (h : s.HeadsSound) : s.forceClose.HeadsSound := by
  fun_cases State.forceClose s
  case case3 i _ k _ => exact headsSound_closeMissing h i k
  all_goals exact h

theorem headsSound_distanceTrigger {s : State} (h : s.HeadsSound) (travel : Nat) : (s.distanceTrigger travel).HeadsSound := by
  unfold State.distanceTrigger
  split
  · exact headsSound_takeSlot h _ _ _
  · exact headsSound_forceClose (headsSound_of_eq h rfl rfl)

/-- What a distance trigger keeps, whatever the travel unit holds, the loop of R24 keeps. -/
theorem crossings_keeps {P : State → Prop} (hrunout : ∀ s r, P s → P (s.withRunout r))
    (htrigger : ∀ s travel, P s → P (s.distanceTrigger travel)) (n : Nat) {s : State} (h : P s) : P (State.crossings n s) := by
  induction n generalizing s with
  | zero => exact h
  | succ n ih =>
      unfold State.crossings
      split
      · exact ih (htrigger _ _ (hrunout _ _ h))
      · exact h

/-- What a distance trigger keeps, whatever the travel unit holds, a forward count keeps. -/
theorem advance_keeps {P : State → Prop} (hrunout : ∀ s r, P s → P (s.withRunout r))
    (htrigger : ∀ s travel, P s → P (s.distanceTrigger travel)) (ch : Puller) (scale : Nat) {s : State} (h : P s) :
    P (s.advance ch scale) := by
  simp only [State.advance, State.growTravel]
  split
  · exact hrunout _ _ h
  · split
    · exact crossings_keeps hrunout htrigger _ (hrunout _ _ (hrunout _ _ (hrunout _ _ h)))
    · exact hrunout _ _ (hrunout _ _ h)

theorem headsSound_acceptLine {s : State} (h : s.HeadsSound) (i : Fin 4) (k : Slot) (l : Line)
    (hl : s.store.card.heads[l.head].enabled = true) : (s.acceptLine i k l).HeadsSound := by
  refine headsSound_setAt (i := l.head)
    (e := s.scan.heads[l.head].accept s.store.card.heads[l.head].minPoints (validCount l.codes) l.peak) h ?_ ?_ ?_
  · simp only [State.acceptLine]
    split
    · rw [State.heads_closeSlot]
      rfl
    · rfl
  · simp only [State.acceptLine]
    split <;> simp
  · rw [hl]
    exact HeadEntry.sound_accept _ _ _ _

theorem headsSound_checkLine {s : State} (h : s.HeadsSound) (l : Line) : (s.checkLine l).HeadsSound := by
  fun_cases State.checkLine l s
  case case4 c _ _ _ entry judged _ =>
    have hjudged : judged.HeadsSound := headsSound_setAt h rfl rfl (HeadEntry.sound_check (h l.head) _)
    exact headsSound_ofFn (s := judged) rfl rfl fun i => HeadEntry.sound_unanswered (hjudged i)
  case case5 => exact headsSound_setAt h rfl rfl (HeadEntry.sound_check (h l.head) _)
  all_goals exact h

theorem headsSound_headFrame {s : State} (h : s.HeadsSound) (bs : List Byte) : (s.headFrame bs).HeadsSound := by
  unfold State.headFrame State.takeLine
  split
  · exact h
  · next l _ =>
    split
    · next hl =>
      simp only
      split
      · exact headsSound_checkLine h _
      · generalize ({ head := ⟨l.head, hl⟩, peak := l.peak, codes := l.codes } : Line) = line
        fun_cases State.triggerLine l.trigger line s
        case case6 henabled _ _ _ _ _ _ => exact headsSound_acceptLine h _ _ _ (by simpa using henabled)
        all_goals exact h
    · exact h

theorem headsSound_fresh {t : State} {headTx : List (List Byte)} (h : t.scan = ScanAssembler.fresh t.store.card headTx) : t.HeadsSound :=
  headsSound_ofFn (s := t) (by rw [h]; rfl) rfl fun _ => HeadEntry.sound_fresh _ _

theorem headsSound_effect (c : Instr) (s : State) (h : s.HeadsSound) : (effect c s).HeadsSound := by
  by_cases hedits : (∃ straps high, c = .powerOn straps high) ∨ (∃ head r, c = .setHead head r) ∨ (∃ b, c = .bankLoad b)
  · obtain ⟨straps, high, rfl⟩ | ⟨head, r, rfl⟩ | ⟨b, rfl⟩ := hedits
    · exact headsSound_fresh (headTx := []) rfl
    · simp only [effect]
      fun_cases State.setHead head r s
      case case5 i _ _ record _ _ =>
        intro j
        show (setAt s.scan.heads i _)[j].sound (setAt s.store.card.heads i record)[j].enabled
        rw [setAt_get, setAt_get]
        split
        · exact HeadEntry.sound_follow (h i)
        · exact h j
      all_goals exact h
    · simp only [effect]
      fun_cases State.bankLoad b s
      case case5 => exact headsSound_of_eq h rfl (by simp [CardStore.suspending_id])
      case case6 i _ _ _ _ _ loaded =>
        intro j
        show (Vector.ofFn fun i => s.scan.heads[(i : Fin 8)].follow _ _)[j].sound _
        simpa [loaded, State.loadBank] using HeadEntry.sound_follow (h j)
      all_goals exact h
  simp only [not_or, not_exists] at hedits
  obtain ⟨hpower, hset, hload⟩ := hedits
  have hcard : (effect c s).store.card.heads = s.store.card.heads := (effect_store c s).heads hset hload hpower
  have hsame (hscan : (effect c s).scan.heads = s.scan.heads) : (effect c s).HeadsSound := headsSound_of_eq h hscan hcard
  by_cases htouch : .scan ∈ touches c
  · cases c
    case powerOn straps high => exact absurd rfl (hpower straps high)
    case setHead head r => exact absurd rfl (hset head r)
    case bankLoad b => exact absurd rfl (hload b)
    case forwardCount ch =>
      simp only [effect]
      split
      · exact advance_keeps (P := State.HeadsSound) (fun _ _ h => h) (fun _ travel h => headsSound_distanceTrigger h travel) _ _ h
      · exact h
    case lineFrame bs => exact headsSound_headFrame h bs
    case lineWaitExpiry i =>
      simp only [effect]
      fun_cases State.expireSlot i s
      case case2 k _ _ => exact headsSound_closeMissing (s := s.reach k.deadline) h i k
      all_goals exact h
    case slotEvaluationEnd =>
      refine hsame ?_
      simp only [effect]
      fun_cases State.endEvaluation s
      case case2 => rw [State.heads_tryHandOver]; rfl
      all_goals rfl
    case checkLimitExpiry =>
      simp only [effect]
      fun_cases State.expireCheck s
      case case2 c _ => exact headsSound_ofFn (s := s) rfl rfl fun i => HeadEntry.sound_unanswered (h i)
      all_goals exact h
    case replySent =>
      simp only [effect]
      fun_cases State.sendReply s
      case case2 => exact headsSound_fresh rfl
      all_goals exact h
    case runStart =>
      refine hsame ?_
      simp only [effect]
      fun_cases State.runStart s <;> rfl
    case triggerOnce =>
      simp only [effect]
      fun_cases State.triggerOnce s
      case case4 => exact headsSound_takeSlot h _ _ _
      all_goals exact h
    case headCheck mask exposure =>
      simp only [effect]
      fun_cases State.headCheck mask exposure s
      case case4 => exact headsSound_ofFn (s := s) rfl rfl fun i => HeadEntry.sound_check (h i) _
      all_goals exact h
    all_goals simp [touches] at htouch
  · exact hsame (congrArg ScanAssembler.heads (effect_frame c s htouch))

end Sys2Proof.Machine
end

section
/-! A slot is EVALUATING exactly while it is the one of the evaluation in hand, along every command (R35 to R46, R90). -/

namespace Sys2Proof.Machine

/-- The slot of the evaluation in hand. -/
def State.busySlot (s : State) : Option (Fin 4) := s.engine.evaluation.map Evaluation.slot

/-- The slots agree with the evaluation in hand, and trigger numbers stay below 65535. -/
structure SlotTable (s : State) : Prop where
  busy : ∀ i k, s.scan.slots[(i : Fin 4)] = some k → (k.phase = .evaluating ↔ s.busySlot = some i)
  number : ∀ i k, s.scan.slots[(i : Fin 4)] = some k → k.number < 65535
  held : ∀ i, s.busySlot = some i → ∃ k, s.scan.slots[i] = some k
  next : s.scan.nextNumber < 65535

theorem slotsSound_iff (s : State) : s.SlotsSound ↔ SlotTable s := by
  have hbusy (i : Fin 4) : s.busySlot = some i ↔ ∃ v, s.engine.evaluation = some v ∧ v.slot = i := by simp [State.busySlot]
  constructor
  · rintro ⟨hslots, hheld, hnext⟩
    refine ⟨fun i k hk => ?_, fun i k hk => (hslots i k hk).2, fun i hi => ?_, hnext⟩
    · rw [hbusy]
      exact (hslots i k hk).1
    · obtain ⟨v, hv, rfl⟩ := (hbusy i).mp hi
      exact Option.isSome_iff_exists.mp (hheld v hv)
  · intro h
    refine ⟨fun i k hk => ⟨?_, h.number i k hk⟩, fun v hv => ?_, h.next⟩
    · rw [← hbusy]
      exact h.busy i k hk
    · exact Option.isSome_iff_exists.mpr (h.held v.slot ((hbusy _).mpr ⟨v, hv, rfl⟩))

namespace SlotTable

variable {s t : State}

theorem of_eq (h : SlotTable s) (hslots : t.scan.slots = s.scan.slots) (hnext : t.scan.nextNumber = s.scan.nextNumber)
    (hbusy : t.busySlot = s.busySlot) : SlotTable t := by
  constructor
  · rw [hslots, hbusy]
    exact h.busy
  · rw [hslots]
    exact h.number
  · rw [hslots, hbusy]
    exact h.held
  · rw [hnext]
    exact h.next

/-- A slot that is not the one in hand takes a record that is not EVALUATING. -/
theorem putSlot (h : SlotTable s) {i : Fin 4} {k : Slot} (hslots : t.scan.slots = setAt s.scan.slots i (some k))
    (hnext : t.scan.nextNumber < 65535) (hbusy : t.busySlot = s.busySlot) (hi : s.busySlot ≠ some i) (hk : k.phase ≠ .evaluating)
    (hnumber : k.number < 65535) : SlotTable t := by
  have hget (j : Fin 4) : t.scan.slots[j] = if j = i then some k else s.scan.slots[j] := by rw [hslots, setAt_get]
  constructor
  · intro j m hm
    rw [hbusy]
    by_cases hj : j = i
    · rw [hget, if_pos hj] at hm
      cases hm
      exact iff_of_false hk (hj ▸ hi)
    · rw [hget, if_neg hj] at hm
      exact h.busy j m hm
  · intro j m hm
    by_cases hj : j = i
    · rw [hget, if_pos hj] at hm
      cases hm
      exact hnumber
    · rw [hget, if_neg hj] at hm
      exact h.number j m hm
  · intro j hj
    rw [hbusy] at hj
    rw [hget, if_neg (show j ≠ i from fun hji => hi (hji ▸ hj))]
    exact h.held j hj
  · exact hnext

theorem not_busy (h : SlotTable s) {i : Fin 4} {k : Slot} (hslot : s.scan.slots[i] = some k) (hk : k.phase ≠ .evaluating) :
    s.busySlot ≠ some i := fun hi => hk ((h.busy i k hslot).mpr hi)

theorem not_busy_free (h : SlotTable s) {i : Fin 4} (hslot : s.scan.slots[i] = none) : s.busySlot ≠ some i := fun hi => by
  obtain ⟨k, hk⟩ := h.held i hi
  rw [hslot] at hk
  cases hk

/-- A CLOSED slot handed over while no other is in hand. -/
theorem handOver (h : SlotTable s) {i : Fin 4} {k : Slot} (hslot : s.scan.slots[i] = some k) (hidle : s.busySlot = none) :
    SlotTable (s.handOver i k) := by
  have hbusy : (s.handOver i k).busySlot = some i := rfl
  have hget (j : Fin 4) : (s.handOver i k).scan.slots[j] = if j = i then some { k with phase := .evaluating } else s.scan.slots[j] :=
    setAt_get _ _ _ _
  constructor
  · intro j m hm
    rw [hbusy]
    by_cases hj : j = i
    · rw [hget, if_pos hj] at hm
      cases hm
      exact iff_of_true rfl (by rw [hj])
    · rw [hget, if_neg hj] at hm
      refine iff_of_false (fun he => ?_) fun he => hj (Option.some.inj he).symm
      rw [h.busy j m hm, hidle] at he
      cases he
  · intro j m hm
    by_cases hj : j = i
    · rw [hget, if_pos hj] at hm
      cases hm
      exact h.number i k hslot
    · rw [hget, if_neg hj] at hm
      exact h.number j m hm
  · intro j hj
    rw [hbusy] at hj
    cases hj
    exact ⟨_, (hget i).trans (if_pos rfl)⟩
  · exact h.next

theorem tryHandOver (h : SlotTable s) : SlotTable s.tryHandOver := by
  cases hbusy : s.busySlot with
  | some i =>
      obtain ⟨k, hk⟩ := h.held i hbusy
      rw [State.tryHandOver_busy (j := i)]
      · exact h
      · simp [ScanAssembler.holds, hk, (h.busy i k hk).mpr hbusy]
  | none =>
      obtain hstill | ⟨j, k, hk, -, hover⟩ := s.tryHandOver_cases
      · rwa [hstill]
      · rw [hover]
        exact h.handOver hk hbusy

theorem closeSlot (h : SlotTable s) {i : Fin 4} {k : Slot} (hi : s.busySlot ≠ some i) (hnumber : k.number < 65535) :
    SlotTable (s.closeSlot i k) := by
  have hclosed : SlotTable (s.withScan (s.scan.putSlot i (some { k with phase := .closed }))) :=
    h.putSlot rfl h.next rfl hi (fun hp => by cases hp) hnumber
  exact hclosed.tryHandOver

theorem closeMissing (h : SlotTable s) {i : Fin 4} {k : Slot} (hslot : s.scan.slots[i] = some k) (hk : k.phase = .waiting) :
    SlotTable (s.closeMissing i k) := by
  have hmissed : SlotTable (s.missHeads k) := h.of_eq rfl rfl rfl
  exact hmissed.closeSlot (h.not_busy hslot (by rw [hk]; decide)) (h.number i k hslot)

theorem forceClose (h : SlotTable s) : SlotTable s.forceClose := by
  fun_cases State.forceClose s
  case case3 i holdest k hk =>
    refine h.closeMissing hk ?_
    have hholds := ScanAssembler.oldest_holds holdest
    simpa [ScanAssembler.holds, hk] using hholds
  all_goals exact h

theorem takeSlot (h : SlotTable s) {i : Fin 4} (hfree : s.scan.slots[i] = none) (manual : Bool) (travel : Nat) :
    SlotTable (s.takeSlot i manual travel) := by
  have hnext : nextTriggerNumber s.scan.nextNumber < 65535 := by
    rw [nextTriggerNumber_eq]
    split <;> omega
  have hbusy := h.not_busy_free hfree
  have htaken : SlotTable (s.withScan { s.scan with
      nextNumber := nextTriggerNumber s.scan.nextNumber, slots := setAt s.scan.slots i (some (s.newSlot manual travel)),
      skips := if manual then s.scan.skips else none,
      headTx := s.scan.headTx ++ [triggerFrame (s.newSlot manual travel).number] }) :=
    h.putSlot rfl hnext rfl hbusy (by simp [State.newSlot]) h.next
  simp only [State.takeSlot]
  split
  · exact htaken.closeSlot hbusy h.next
  · exact htaken

theorem distanceTrigger (h : SlotTable s) (travel : Nat) : SlotTable (s.distanceTrigger travel) := by
  unfold State.distanceTrigger
  split
  · next hfree => exact h.takeSlot (ScanAssembler.lowestFree_free hfree) _ _
  · exact forceClose (h.of_eq rfl rfl rfl)

theorem acceptLine (h : SlotTable s) {i : Fin 4} {k : Slot} (hslot : s.scan.slots[i] = some k) (hk : k.phase = .waiting) (l : Line) :
    SlotTable (s.acceptLine i k l) := by
  have hwaiting : k.phase ≠ .evaluating := by rw [hk]; decide
  have hbusy := h.not_busy hslot hwaiting
  have hnumber := h.number i k hslot
  have hstored {t : State} (ht : t.scan.slots = setAt s.scan.slots i (some { k with lines := k.lines ++ [l] }))
      (hn : t.scan.nextNumber = s.scan.nextNumber) (hb : t.busySlot = s.busySlot) : SlotTable t :=
    h.putSlot ht (hn ▸ h.next) hb hbusy hwaiting hnumber
  fun_cases State.acceptLine
  case case1 held _ stored _ =>
    have htable : SlotTable stored := hstored rfl rfl rfl
    exact htable.closeSlot (k := held) hbusy hnumber
  case case2 => exact hstored rfl rfl rfl

theorem checkLine (h : SlotTable s) (l : Line) : SlotTable (s.checkLine l) := by
  fun_cases State.checkLine l s <;> exact h.of_eq rfl rfl rfl

theorem headFrame (h : SlotTable s) (bs : List Byte) : SlotTable (s.headFrame bs) := by
  unfold State.headFrame State.takeLine
  split
  · exact h.of_eq rfl rfl rfl
  · next l _ =>
    split
    · simp only
      split
      · exact h.checkLine _
      · fun_cases State.triggerLine
        case case6 i hopen k hk _ _ =>
          refine h.acceptLine hk ?_ _
          have hholds := List.find?_some hopen
          simp only [ScanAssembler.holds, hk, Bool.and_eq_true, beq_iff_eq] at hholds
          exact hholds.1
        all_goals exact h.of_eq rfl rfl rfl
    · exact h.of_eq rfl rfl rfl

/-- The evaluation in hand ends: its slot becomes FREE and no slot is in hand. -/
theorem free (h : SlotTable s) {i : Fin 4} (hbusy : s.busySlot = some i) (hslots : t.scan.slots = setAt s.scan.slots i none)
    (hnext : t.scan.nextNumber = s.scan.nextNumber) (hidle : t.busySlot = none) : SlotTable t := by
  have hget (j : Fin 4) : t.scan.slots[j] = if j = i then none else s.scan.slots[j] := by rw [hslots, setAt_get]
  have hother {j : Fin 4} {k : Slot} (hk : t.scan.slots[j] = some k) : j ≠ i ∧ s.scan.slots[j] = some k := by
    by_cases hj : j = i
    · rw [hget, if_pos hj] at hk
      cases hk
    · rw [hget, if_neg hj] at hk
      exact ⟨hj, hk⟩
  constructor
  · intro j k hk
    obtain ⟨hj, hold⟩ := hother hk
    rw [hidle, h.busy j k hold, hbusy]
    exact iff_of_false (fun he => hj (Option.some.inj he).symm) fun he => by cases he
  · exact fun j k hk => h.number j k (hother hk).2
  · intro j hj
    rw [hidle] at hj
    cases hj
  · rw [hnext]
    exact h.next

theorem endEvaluation (h : SlotTable s) : SlotTable s.endEvaluation := by
  fun_cases State.endEvaluation s
  case case2 v hv _ =>
    have hfreed : SlotTable ((s.withScan (s.scan.putSlot v.slot none)).withEngine
        { s.engine with evaluation := none, stale := setAt s.engine.stale v.slot false }) :=
      h.free (i := v.slot) (by simp [State.busySlot, hv]) rfl rfl rfl
    exact hfreed.tryHandOver
  all_goals exact h

theorem evaluateStrand (h : SlotTable s) (i : Fin 4) : SlotTable (s.evaluateStrand i) := by
  fun_cases State.evaluateStrand i s
  case case2 v hv k rest _ _ =>
    refine h.of_eq rfl rfl ?_
    simp only [State.busySlot, State.engine_withEngine, SectionEngine.evaluate, hv]
    split <;> rfl
  all_goals exact h

/-- An evaluation that goes on for the record only is of the same slot (R90). -/
theorem recordOnly (h : SlotTable s) (hscan : t.scan = s.scan) (hengine : t.engine.evaluation = s.engine.recordOnly.evaluation) :
    SlotTable t := by
  refine h.of_eq (by rw [hscan]) (by rw [hscan]) ?_
  rw [State.busySlot, hengine]
  simp [SectionEngine.recordOnly, State.busySlot, Function.comp_def]

/-- An event taken from the outbox leaves the slots and the evaluation in hand. -/
theorem takeEvent (h : SlotTable s) {e : TrackerEvent} {k : State → State} (hscan : ∀ t, (k t).scan = t.scan)
    (hengine : ∀ t, (k t).engine = t.engine) : SlotTable (s.takeEvent e k) := by
  obtain hstill | ⟨-, htaken⟩ := s.takeEvent_cases e k
  · rwa [hstill]
  · rw [htaken]
    exact h.of_eq (by rw [hscan]; rfl) (by rw [hscan]; rfl) (by rw [State.busySlot, hengine]; rfl)

theorem loadBank (h : SlotTable s) (b : Bank) : SlotTable (s.loadBank b) := by
  have hengine : (s.loadBank b).engine = s.engine.forget := by simp [State.loadBank]
  refine SlotTable.of_eq (s := s.withEngine s.engine.recordOnly) (h.recordOnly rfl rfl) ?_ ?_ ?_
  · simp [State.loadBank]
  · simp [State.loadBank]
  · rw [State.busySlot, hengine]
    rfl

theorem beginRun (h : SlotTable s) : SlotTable s.beginRun := by
  refine SlotTable.of_eq (s := s.withEngine s.engine.recordOnly) (h.recordOnly rfl rfl) ?_ ?_ ?_ <;> rfl

theorem fresh {c : Card} {headTx : List (List Byte)} (hscan : t.scan = ScanAssembler.fresh c headTx)
    (hengine : t.engine = SectionEngine.fresh) : SlotTable t := by
  have hempty (i : Fin 4) (k : Slot) : t.scan.slots[i] ≠ some k := by simp [hscan, ScanAssembler.fresh]
  have hidle : t.busySlot = none := by rw [State.busySlot, hengine]; rfl
  constructor
  · exact fun i k hk => absurd hk (hempty i k)
  · exact fun i k hk => absurd hk (hempty i k)
  · intro i hi
    rw [hidle] at hi
    cases hi
  · rw [hscan]
    exact (by decide : (0 : Nat) < 65535)

end SlotTable

theorem slotTable_effect (c : Instr) (s : State) (h : SlotTable s) : SlotTable (effect c s) := by
  by_cases htouch : .scan ∈ touches c ∨ .engine ∈ touches c
  · cases c
    case powerOn straps high => exact .fresh (c := s.store.powerOn.card) rfl rfl
    case forwardCount ch =>
      simp only [effect]
      split
      · exact advance_keeps (P := SlotTable) (fun _ _ h => h.of_eq rfl rfl rfl) (fun _ travel h => h.distanceTrigger travel) _ _ h
      · exact h
    case lineFrame bs => exact h.headFrame bs
    case lineWaitExpiry i =>
      simp only [effect]
      fun_cases State.expireSlot i s
      case case2 k hk hphase => exact SlotTable.closeMissing (s := s.reach k.deadline) (h.of_eq rfl rfl rfl) hk hphase
      all_goals exact h
    case strandEvaluation i => exact h.evaluateStrand i
    case slotEvaluationEnd => exact h.endEvaluation
    case scanEvent e => exact h.takeEvent (fun _ => rfl) fun _ => rfl
    case zoneOpenEvent e => exact h.takeEvent (fun _ => rfl) fun _ => rfl
    case zoneUpdateEvent e => exact h.takeEvent (fun _ => rfl) fun _ => rfl
    case zoneCloseEvent e => exact h.takeEvent (fun _ => rfl) fun _ => rfl
    case checkLimitExpiry =>
      simp only [effect]
      fun_cases State.expireCheck s <;> exact h.of_eq rfl rfl rfl
    case replySent =>
      simp only [effect]
      fun_cases State.sendReply s
      case case2 => exact .fresh rfl rfl
      all_goals exact h.of_eq rfl rfl rfl
    case setHead head r =>
      simp only [effect]
      fun_cases State.setHead head r s <;> exact h.of_eq rfl rfl rfl
    case setFeature f r =>
      simp only [effect]
      fun_cases State.setFeature f r s
      case case5 => exact h.recordOnly rfl rfl
      all_goals exact h
    case clearFeature f =>
      simp only [effect]
      fun_cases State.clearFeature f s
      case case3 => exact h.recordOnly rfl rfl
      all_goals exact h
    case bankLoad b =>
      simp only [effect]
      fun_cases State.bankLoad b s
      case case6 => exact h.loadBank _
      all_goals exact h.of_eq rfl rfl rfl
    case runStart =>
      simp only [effect]
      fun_cases State.runStart s
      case case4 => exact h.beginRun
      all_goals exact h
    case triggerOnce =>
      simp only [effect]
      fun_cases State.triggerOnce s
      case case4 i hfree => exact h.takeSlot (ScanAssembler.lowestFree_free hfree) _ _
      all_goals exact h
    case headCheck mask exposure =>
      simp only [effect]
      fun_cases State.headCheck mask exposure s <;> exact h.of_eq rfl rfl rfl
    all_goals simp [touches] at htouch
  · simp only [not_or] at htouch
    have hscan : (effect c s).scan = s.scan := effect_frame c s htouch.1
    have hengine : (effect c s).engine = s.engine := effect_frame c s htouch.2
    exact h.of_eq (by rw [hscan]) (by rw [hscan]) (by rw [State.busySlot, hengine]; rfl)

/-- Settles O11: the head table and the slot table each along every command. -/
theorem stepKeepsHeadAndSlotTables : Obligations.StepKeepsHeadAndSlotTables := by
  unfold Obligations.StepKeepsHeadAndSlotTables
  refine ⟨step_keeps (fun _ _ h => h) (fun s h => ?_) (fun _ _ _ h => h) headsSound_effect, fun s t h hstep => ?_⟩
  · unfold State.passMillisecond
    split <;> exact h
  · rw [slotsSound_iff] at h ⊢
    refine step_keeps (P := SlotTable) (fun _ _ h => h.of_eq rfl rfl rfl) (fun s h => ?_) (fun _ _ _ h => h.of_eq rfl rfl rfl)
      slotTable_effect s t h hstep
    unfold State.passMillisecond
    split <;> exact h.of_eq rfl rfl rfl

end Sys2Proof.Machine
end

section
/-! The thermal records along every command (R56 to R63). -/

namespace Sys2Proof.Machine

/-- Only SET_THERMAL, BANK_LOAD and POWER_ON put another thermal section on the working card. -/
theorem CardStore.Change.thermal {c : Instr} {x y : CardStore} (h : CardStore.Change c x y) (hset : ∀ r, c ≠ .setThermal r)
    (hload : ∀ b, c ≠ .bankLoad b) (hpower : ∀ straps high, c ≠ .powerOn straps high) : y.card.thermal = x.card.thermal := by
  induction h with
  | next _ _ ihx ihy => exact ihy.trans ihx
  | edit x card _ _ hthermal =>
      obtain hthermal | ⟨r, hc⟩ := hthermal
      · exact hthermal
      · exact absurd hc (hset r)
  | load x i _ _ hc =>
      obtain ⟨b, hc⟩ := hc
      exact absurd hc (hload b)
  | powerOn x hc =>
      obtain ⟨straps, high, hc⟩ := hc
      exact absurd hc (hpower straps high)
  | resume x => rw [CardStore.card_resume]
  | _ => rfl

/-- A thermal record keeps to its ranges; in FALLBACK it holds the default temperature with its timer stopped. -/
structure RecordSound (t : ThermalSection) (r : ThermalRecord) : Prop where
  temperature : 2000 ≤ r.temperature ∧ r.temperature ≤ 6095
  fallback : r.fallback = true → r.timer = none ∧ r.temperature = t.defaultTemp

theorem thermalSound_iff (s : State) : s.ThermalSound ↔ ∀ i, RecordSound s.store.card.thermal s.thermal[(i : Fin 4)] :=
  forall_congr' fun _ => ⟨fun h => ⟨h.1, h.2⟩, fun h => ⟨h.temperature, h.fallback⟩⟩

theorem defaultTemp_of_inRange {c : Card} (h : c.inRange = true) : 2000 ≤ c.thermal.defaultTemp ∧ c.thermal.defaultTemp ≤ 6095 := by
  have hthermal := ((cardInRange_iff c).mp h).thermal
  simp only [ThermalSection.inRange, Bool.and_eq_true, decide_eq_true_eq] at hthermal
  exact hthermal.1.2

namespace RecordSound

variable {t : ThermalSection}

theorem fresh (h : 2000 ≤ t.defaultTemp ∧ t.defaultTemp ≤ 6095) (now : Nat) : RecordSound t (ThermalRecord.fresh t now) :=
  ⟨h, fun hf => by cases hf⟩

theorem enterFallback (h : 2000 ≤ t.defaultTemp ∧ t.defaultTemp ≤ 6095) (r : ThermalRecord) : RecordSound t (r.enterFallback t) :=
  ⟨h, fun _ => ⟨rfl, rfl⟩⟩

theorem sample (now : Nat) {code : BitVec 12} (r : ThermalRecord) : RecordSound t (r.sample t now (sampleTemperature code)) := by
  refine ⟨?_, fun hf => by cases hf⟩
  have hcode := code.isLt
  simp only [ThermalRecord.sample, sampleTemperature]
  omega

theorem takeSection {t' : ThermalSection} {r : ThermalRecord} (h : RecordSound t' r) (ht : 2000 ≤ t.defaultTemp ∧ t.defaultTemp ≤ 6095)
    (now : Nat) : RecordSound t (r.takeSection t now) := by
  constructor
  · simp only [ThermalRecord.takeSection]
    split
    · exact ht
    · exact h.temperature
  · intro hf
    have hfallback : r.fallback = true := hf
    simp [ThermalRecord.takeSection, hfallback, (h.fallback hfallback).1]

end RecordSound

theorem thermalSound_takeSection {s t : State} {now : Nat} {x : ThermalSection} (h : s.ThermalSound)
    (hthermal : t.thermal = Vector.ofFn fun i => s.thermal[i].takeSection x now) (hx : t.store.card.thermal = x)
    (hcard : t.store.card.inRange = true) : t.ThermalSound := by
  rw [thermalSound_iff] at h ⊢
  have hdefault := defaultTemp_of_inRange hcard
  intro i
  rw [hthermal]
  rw [hx] at hdefault ⊢
  simpa using (h i).takeSection hdefault now

theorem thermalSound_setAt {s t : State} {i : Fin 4} {r : ThermalRecord} (h : s.ThermalSound)
    (hthermal : t.thermal = setAt s.thermal i r) (hcard : t.store.card.thermal = s.store.card.thermal)
    (hr : RecordSound s.store.card.thermal r) : t.ThermalSound := by
  rw [thermalSound_iff] at h ⊢
  intro j
  rw [hthermal, hcard]
  exact forall_setAt (P := fun _ r => RecordSound s.store.card.thermal r) h hr j

theorem thermalSound_fresh {t : State} {now : Nat} (h : t.thermal = freshThermal t.store.card.thermal now)
    (hcard : t.store.card.inRange = true) : t.ThermalSound := by
  rw [thermalSound_iff]
  intro i
  rw [h]
  simpa [freshThermal] using RecordSound.fresh (defaultTemp_of_inRange hcard) now

theorem thermalSound_effect (c : Instr) (s : State) (hcards : s.CardsSound) (h : s.ThermalSound) : (effect c s).ThermalSound := by
  have hinrange : (effect c s).store.card.inRange = true := (cardsSound_effect c s hcards).1
  have hdefault := defaultTemp_of_inRange hcards.1
  by_cases hedits : (∃ straps high, c = .powerOn straps high) ∨ (∃ r, c = .setThermal r) ∨ (∃ b, c = .bankLoad b)
  · obtain ⟨straps, high, rfl⟩ | ⟨r, rfl⟩ | ⟨b, rfl⟩ := hedits
    · exact thermalSound_fresh (now := 0) rfl hinrange
    · simp only [effect] at hinrange ⊢
      revert hinrange
      fun_cases State.setThermal r s
      case case3 t _ _ => exact fun hinrange => thermalSound_takeSection h rfl rfl hinrange
      all_goals exact fun _ => h
    · simp only [effect] at hinrange ⊢
      revert hinrange
      fun_cases State.bankLoad b s
      case case5 =>
        refine fun _ => (thermalSound_iff _).mpr fun i => ?_
        simpa [CardStore.suspending_id] using (thermalSound_iff s).mp h i
      case case6 => exact fun hinrange => thermalSound_takeSection h rfl rfl hinrange
      all_goals exact fun _ => h
  simp only [not_or, not_exists] at hedits
  obtain ⟨hpower, hset, hload⟩ := hedits
  have hcard : (effect c s).store.card.thermal = s.store.card.thermal := (effect_store c s).thermal hset hload hpower
  by_cases htouch : .thermal ∈ touches c
  · cases c
    case powerOn straps high => exact absurd rfl (hpower straps high)
    case setThermal r => exact absurd rfl (hset r)
    case bankLoad b => exact absurd rfl (hload b)
    case pyroSample i code =>
      simp only [effect]
      fun_cases State.takeSample i code s
      case case1 => exact thermalSound_setAt h rfl rfl (.sample _ _)
      case case2 => exact thermalSound_setAt h rfl rfl (.enterFallback hdefault _)
      all_goals exact h
    case holdTimerExpiry i =>
      simp only [effect]
      fun_cases State.expireHold i s
      case case3 => exact thermalSound_setAt h rfl rfl (.enterFallback hdefault _)
      all_goals exact h
    case replySent =>
      simp only [effect] at hinrange ⊢
      revert hinrange
      fun_cases State.sendReply s
      case case2 => exact fun hinrange => thermalSound_fresh rfl hinrange
      all_goals exact fun _ => h
    all_goals simp [touches] at htouch
  · have hthermal : (effect c s).thermal = s.thermal := effect_frame c s htouch
    rw [State.ThermalSound, hthermal, hcard]
    exact h

/-- Settles O12: cards keep to their ranges along every command, and with them the default temperature. -/
theorem stepKeepsThermalRecords : Obligations.StepKeepsThermalRecords := by
  unfold Obligations.StepKeepsThermalRecords
  intro s t hcards hthermal hstep
  refine (step_keeps (P := fun s => s.CardsSound ∧ s.ThermalSound) (fun _ _ h => h) (fun s h => ?_) (fun _ _ _ h => h)
    (fun c s h => ⟨cardsSound_effect c s h.1, thermalSound_effect c s h.1 h.2⟩) s t ⟨hcards, hthermal⟩ hstep).2
  unfold State.passMillisecond
  split <;> exact h

end Sys2Proof.Machine
end

section
/-! The report unit and the watchdog along every command (R121, R153, R160, R161, R167, R169, R176). -/

namespace Sys2Proof.Machine

/-- While the driver is on nothing is received (R153). -/
theorem State.receive_of_driver {s : State} (h : s.link.driver = true) (b : Byte) : s.receive b = s := by
  rw [State.receive, if_pos h]

/-- With the driver off a byte goes through the receiver, and its judgement is acted on (R155). -/
theorem State.receive_eq {s : State} (h : s.link.driver = false) (b : Byte) : s.receive b =
    (s.withReceiver (s.link.receiver.push (addressOf s.link.straps) b).1).judged
      (s.link.receiver.push (addressOf s.link.straps) b).2 := by
  rw [State.receive, if_neg (Bool.eq_false_iff.mp h)]

/-- What a command can make of the report unit: nothing, or one of its own operations after another. -/
inductive ReportUnit.Change : ReportUnit → ReportUnit → Prop
  | same (u) : Change u u
  | marks (u : ReportUnit) (latches : Vector (Option LastResults) 4) (flags mask : BitVec 11) :
      Change u { u with latches := latches, flags := flags, mask := mask }
  | counts (u : ReportUnit) (counters : Counters) (h : u.counters.sound → counters.sound) : Change u { u with counters := counters }
  | take (u : ReportUnit) (r : LengthRecord) : Change u (u.take r)
  | drop (u : ReportUnit) (r : LengthRecord) (rest : List LengthRecord) (h : u.queue = r :: rest) : Change u { u with queue := rest }
  | zeroTally (u : ReportUnit) : Change u { u with tally := Tally.zero }
  | powerOn (u : ReportUnit) : Change u ReportUnit.fresh
  | next {u v w : ReportUnit} (h : Change u v) (k : Change v w) : Change u w

namespace ReportUnit.Change

theorem bump16_le (n : Nat) : bump16 n ≤ 65535 := Nat.min_le_left _ _

theorem raise (f : Flag) (u : ReportUnit) : Change u (u.raise f) := marks u u.latches _ u.mask

theorem lower (f : Flag) (u : ReportUnit) : Change u (u.lower f) := marks u u.latches _ u.mask

theorem raiseIf (b : Bool) (f : Flag) (u : ReportUnit) : Change u (u.raiseIf b f) := by
  unfold ReportUnit.raiseIf
  split
  · exact raise f u
  · exact same u

theorem countLinkCrc (u : ReportUnit) : Change u u.countLinkCrc :=
  next (counts u { u.counters with linkCrc := bump16 u.counters.linkCrc } fun ⟨_, h⟩ => ⟨bump16_le _, h⟩) (raise _ _)

theorem countOverrun (u : ReportUnit) : Change u u.countOverrun :=
  next (counts u { u.counters with overrun := bump16 u.counters.overrun } fun ⟨h1, _, h⟩ => ⟨h1, bump16_le _, h⟩) (raise _ _)

theorem countLineCrc (u : ReportUnit) : Change u u.countLineCrc :=
  counts u { u.counters with lineCrc := bump16 u.counters.lineCrc } fun ⟨h1, h2, _, h⟩ => ⟨h1, h2, bump16_le _, h⟩

theorem countDuplicate (u : ReportUnit) : Change u u.countDuplicate :=
  counts u { u.counters with duplicate := bump16 u.counters.duplicate } fun ⟨h1, h2, h3, _, h⟩ => ⟨h1, h2, h3, bump16_le _, h⟩

theorem countLateLine (u : ReportUnit) : Change u u.countLateLine :=
  next (counts u { u.counters with lateLine := bump16 u.counters.lateLine }
    fun ⟨h1, h2, h3, h4, _, h⟩ => ⟨h1, h2, h3, h4, bump16_le _, h⟩) (raise _ _)

theorem countSkipped (u : ReportUnit) : Change u u.countSkipped :=
  next (counts u { u.counters with skipped := bump16 u.counters.skipped }
    fun ⟨h1, h2, h3, h4, h5, _, h⟩ => ⟨h1, h2, h3, h4, h5, bump16_le _, h⟩) (raise _ _)

theorem countLateResult (u : ReportUnit) : Change u u.countLateResult :=
  next (counts u { u.counters with lateResult := bump16 u.counters.lateResult }
    fun ⟨h1, h2, h3, h4, h5, h6, _, h⟩ => ⟨h1, h2, h3, h4, h5, h6, bump16_le _, h⟩) (raise _ _)

theorem countCoarsening (u : ReportUnit) : Change u u.countCoarsening :=
  next (counts u { u.counters with coarsening := bump16 u.counters.coarsening }
    fun ⟨h1, h2, h3, h4, h5, h6, h7, _, h⟩ => ⟨h1, h2, h3, h4, h5, h6, h7, bump16_le _, h⟩) (raise _ _)

theorem countLostCut (u : ReportUnit) : Change u u.countLostCut :=
  counts u { u.counters with lostCut := bump16 u.counters.lostCut }
    fun ⟨h1, h2, h3, h4, h5, h6, h7, h8, _⟩ => ⟨h1, h2, h3, h4, h5, h6, h7, h8, bump16_le _⟩

theorem countTracked (late coarsened : Bool) (u : ReportUnit) : Change u (u.countTracked late coarsened) := by
  simp only [ReportUnit.countTracked]
  cases late <;> cases coarsened
  · exact same u
  · exact countCoarsening u
  · exact countLateResult u
  · exact next (countLateResult u) (countCoarsening _)

theorem foldl {α : Type} {f : State → α → State} (h : ∀ s x, Change s.report (f s x).report) (xs : List α) (s : State) :
    Change s.report (xs.foldl f s).report := by
  induction xs generalizing s with
  | nil => exact same _
  | cons x xs ih => exact next (h s x) (ih (f s x))

/-! ### The shared operations -/

theorem tryHandOver (s : State) : Change s.report s.tryHandOver.report := by
  rw [State.report_tryHandOver]
  exact same _

theorem closeSlot (i : Fin 4) (k : Slot) (s : State) : Change s.report (s.closeSlot i k).report := by
  rw [State.report_closeSlot]
  exact same _

theorem closeMissing (i : Fin 4) (k : Slot) (s : State) : Change s.report (s.closeMissing i k).report :=
  next (raiseIf _ _ _) (closeSlot i k (s.missHeads k))

theorem forceClose (s : State) : Change s.report s.forceClose.report := by
  fun_cases State.forceClose s
  case case3 i _ k _ => exact closeMissing i k s
  all_goals exact same _

theorem distanceTrigger (travel : Nat) (s : State) : Change s.report (s.distanceTrigger travel).report := by
  unfold State.distanceTrigger
  split
  · rw [State.report_takeSlot]
    exact same _
  · rw [State.skipTrigger]
    exact next (countSkipped _) (forceClose ((s.withScan _).withReport s.report.countSkipped))

theorem advance (ch : Puller) (scale : Nat) (s : State) : Change s.report (s.advance ch scale).report :=
  advance_keeps (P := fun t => Change s.report t.report) (fun _ _ h => h) (fun t travel h => next h (distanceTrigger travel t)) ch scale
    (same _)

theorem formLength (o : Origin) (i : Fin 4) (upper : Int) (s : State) : Change s.report (s.formLength o i upper).report :=
  take _ _

theorem finalLength (o : Origin) (i : Fin 4) (h : Int) (s : State) : Change s.report (s.finalLength o i h).report := by
  simp only [State.finalLength]
  split
  · exact formLength o i _ s
  · exact same _

theorem endStrand (i : Fin 4) (s : State) : Change s.report (s.endStrand i).report := by
  rw [State.report_endStrand]
  exact same _

theorem cutStrand (c : Int) (s : State) (i : Fin 4) : Change s.report (s.cutStrand c i).report := by
  simp only [State.cutStrand]
  split
  · have hformed : Change s.report
        (if s.tracker.strands[i].formsLength c then s.formLength .cut i (cutUpper s.tracker.strands[i] c) else s).report := by
      split
      · exact formLength _ i _ s
      · exact same _
    split
    · exact next hformed (endStrand i _)
    · exact hformed
  · exact same _

theorem takeCut (s : State) : Change s.report s.takeCut.report := by
  cases hcuts : s.runout.cuts with
  | nil =>
      rw [State.takeCut_of_nil hcuts]
      exact same _
  | cons travel rest =>
      have hready : s.takeDueReports.report = s.report := by
        unfold State.takeDueReports
        split <;> rfl
      have hcut : Change s.report (s.takeDueReports.cutStrands (sawCoordinate s.store.card.line travel)).report := by
        rw [State.cutStrands, ← hready]
        exact foldl (fun s i => cutStrand _ s i) strandsInOrder _
      rw [State.takeCut_of_cons hcuts rfl]
      simp only [State.leaveCut, State.report_withTracker, State.report_withRunout]
      split
      · simpa [State.applyPending] using hcut
      · exact hcut

theorem withTracked (i : Fin 4) (t : Tracked) (s : State) : Change s.report (s.withTracked i t).report := countTracked _ _ _

theorem eachStrand (f : Strand → Tracked) (s : State) : Change s.report (s.eachStrand f).report := by
  rw [State.eachStrand]
  exact foldl (fun s i => withTracked i _ s) strandsInOrder s

theorem takeEvent {e : TrackerEvent} {k : State → State} (hk : ∀ t, Change t.report (k t).report) (s : State) :
    Change s.report (s.takeEvent e k).report := by
  obtain hstill | ⟨-, htaken⟩ := s.takeEvent_cases e k
  · rw [hstill]
    exact same _
  · rw [htaken]
    exact hk s.received

/-! ### The commands -/

theorem acceptLine (i : Fin 4) (k : Slot) (l : Line) (s : State) : Change s.report (s.acceptLine i k l).report := by
  fun_cases State.acceptLine
  case case1 held blinded stored _ => exact next (raiseIf _ _ _) (closeSlot i _ stored)
  case case2 => exact raiseIf _ _ _

theorem headFrame (bs : List Byte) (s : State) : Change s.report (s.headFrame bs).report := by
  unfold State.headFrame State.takeLine
  split
  · exact countLineCrc _
  · split
    · simp only
      split
      · fun_cases State.checkLine
        case case3 => exact countDuplicate _
        case case4 => exact raise _ _
        case case5 => exact same _
        all_goals exact countLateLine _
      · fun_cases State.triggerLine
        case case5 => exact countDuplicate _
        case case6 => exact acceptLine _ _ _ s
        all_goals exact countLateLine _
    · exact countLateLine _

theorem judged (j : Judgement) (s : State) : Change s.report (s.judged j).report := by
  cases j with
  | nothing => exact same _
  | badLength => exact countLinkCrc _
  | corrupt => exact countLinkCrc _
  | whole kind payload =>
      simp only [State.judged, State.takeFrame]
      split
      · exact countOverrun _
      · exact same _

theorem receive (s : State) (b : Byte) : Change s.report (s.receive b).report := by
  by_cases hdriver : s.link.driver = true
  · rw [State.receive_of_driver hdriver]
    exact same _
  · rw [State.receive_eq (Bool.eq_false_iff.mpr hdriver)]
    generalize Receiver.push (addressOf s.link.straps) b s.link.receiver = p
    exact judged p.2 (s.withReceiver p.1)

theorem sendReply (s : State) : Change s.report s.sendReply.report := by
  fun_cases State.sendReply s
  case case2 => exact marks s.report _ _ s.report.mask
  all_goals exact same _

theorem bankLoad (b : Byte) (s : State) : Change s.report (s.bankLoad b).1.report := by
  fun_cases State.bankLoad b s
  case case5 => exact raise _ _
  case case6 => exact marks s.report _ s.report.flags s.report.mask
  all_goals exact same _

theorem runClose (s : State) : Change s.report s.runClose.1.report := by
  unfold State.runClose
  split
  · exact same _
  · rw [State.report_returnToIdle]
    refine foldl (fun s i => ?_) strandsInOrder s
    unfold State.closeStrand
    split
    · exact finalLength _ i _ s
    · exact same _

theorem withdraw (b : Byte) (s : State) : Change s.report (s.withdraw b).1.report := by
  fun_cases State.withdraw b s
  case case2 i _ _ _ => exact next (finalLength _ i _ s) (endStrand i _)
  all_goals exact same _

end ReportUnit.Change

theorem Counters.sound_zero : Counters.zero.sound := by
  simp [Counters.sound, Counters.zero]

/-- What every command can do to the report unit. -/
theorem effect_report (c : Instr) (s : State) : ReportUnit.Change s.report (effect c s).report := by
  by_cases htouch : .report ∈ touches c
  · cases c
    case powerOn straps high => exact .next (.powerOn _) (.raiseIf _ _ _)
    case forwardCount ch =>
      simp only [effect]
      split
      · exact .advance _ _ s
      · exact .same _
    case cutEdge micros =>
      simp only [effect, State.latchCut]
      split
      · exact .same _
      · split
        · exact .same _
        · exact .countLostCut _
    case takeCut => exact .takeCut s
    case lineFrame bs => exact .headFrame bs s
    case lineWaitExpiry i =>
      simp only [effect]
      fun_cases State.expireSlot i s
      case case2 k _ _ => exact .closeMissing i k (s.reach k.deadline)
      all_goals exact .same _
    case scanEvent e => exact .takeEvent (fun t => .withTracked _ _ t) s
    case zoneOpenEvent e => exact .takeEvent (fun t => .withTracked _ _ t) s
    case zoneCloseEvent e => exact .takeEvent (fun t => .withTracked _ _ t) s
    case pyroSample i code =>
      simp only [effect]
      fun_cases State.takeSample i code s
      case case2 => exact .raiseIf _ _ _
      all_goals exact .same _
    case holdTimerExpiry i =>
      simp only [effect]
      fun_cases State.expireHold i s
      case case3 => exact .raiseIf _ _ _
      all_goals exact .same _
    case checkLimitExpiry =>
      simp only [effect]
      fun_cases State.expireCheck s
      case case2 => exact .raise _ _
      all_goals exact .same _
    case bankStoreEnd found =>
      simp only [effect]
      fun_cases State.endStore found s
      case case1 => exact .raiseIf _ _ _
      all_goals exact .same _
    case frameGapTimeout =>
      simp only [effect, State.gap, State.withReceiver, State.report_withLink]
      split
      · exact .countLinkCrc _
      · exact .same _
    case linkFrame bs => exact .foldl .receive bs s
    case replySent => exact .sendReply s
    case bankLoad b => exact .bankLoad b s
    case bankStore b => exact .raiseIf _ _ _
    case bankLock b m => exact .raiseIf _ _ _
    case runStart =>
      simp only [effect]
      fun_cases State.runStart s
      case case4 => exact .marks s.report _ s.report.flags s.report.mask
      all_goals exact .same _
    case billetJoin =>
      simp only [effect, State.billetJoin]
      split
      · exact .eachStrand _ s
      · exact .same _
    case stop =>
      simp only [effect, State.stop]
      split
      · exact .eachStrand _ (s.withPress .stopped)
      · exact .same _
      · exact .same _
    case runClose => exact .runClose s
    case withdraw i => exact .withdraw i s
    case headCheck mask exposure =>
      simp only [effect]
      fun_cases State.headCheck mask exposure s
      case case4 => exact .lower _ _
      all_goals exact .same _
    case headInfo => exact .lower _ _
    case gaugeLatch mask =>
      simp only [effect]
      fun_cases State.gaugeLatch mask s
      case case2 => exact .marks s.report _ s.report.flags s.report.mask
      all_goals exact .same _
    case gaugeRead i =>
      simp only [effect]
      fun_cases State.gaugeRead i s
      case case2 => exact .marks s.report _ s.report.flags s.report.mask
      all_goals exact .same _
    case reportDrop n =>
      simp only [effect]
      fun_cases State.reportDrop n s
      case case2 r rest hqueue _ => exact .drop s.report r rest hqueue
      all_goals exact .same _
    case clearCounters => exact .counts s.report _ fun _ => Counters.sound_zero
    case clearFlags mask t =>
      simp only [effect]
      cases htally : yesNoOf t with
      | none =>
          simp only [State.clearFlags, htally]
          exact .same _
      | some tally =>
          simp only [State.clearFlags, htally]
          cases tally
          · exact .marks s.report s.report.latches _ s.report.mask
          · exact .next (.zeroTally s.report) (.marks _ s.report.latches _ s.report.mask)
    case setAlarmMask mask => exact .marks s.report s.report.latches s.report.flags _
    all_goals simp [touches] at htouch
  · have hreport : (effect c s).report = s.report := effect_frame c s htouch
    rw [hreport]
    exact .same _

/-! ### The report queue -/

/-- The queue holds at most 64 records with consecutive sequence numbers, the newest just before the next. -/
structure ReportUnit.Queued (u : ReportUnit) : Prop where
  next : u.nextSequence < 65536
  places : u.queue.length ≤ 64
  numbered : ∀ (i : Nat) (r : LengthRecord), u.queue[i]? = some r → r.sequence = (u.nextSequence + 65536 - u.queue.length + i) % 65536

theorem reportsSound_iff (s : State) : s.ReportsSound ↔ s.report.Queued :=
  ⟨fun ⟨hnext, hplaces, hnumbered⟩ => ⟨hnext, hplaces, hnumbered⟩, fun h => ⟨h.next, h.places, h.numbered⟩⟩

theorem ReportUnit.Queued.of_eq {u v : ReportUnit} (h : u.Queued) (hqueue : v.queue = u.queue) (hnext : v.nextSequence = u.nextSequence) :
    v.Queued := by
  obtain ⟨hn, hp, hs⟩ := h
  exact ⟨by rwa [hnext], by rwa [hqueue], by rwa [hnext, hqueue]⟩

theorem ReportUnit.Queued.take {u : ReportUnit} (h : u.Queued) (r : LengthRecord) : (u.take r).Queued := by
  unfold ReportUnit.take
  split
  · next hplace =>
    obtain ⟨hnext, hplaces, hnumbered⟩ := h
    refine ⟨Nat.mod_lt _ (by decide), by rw [List.length_append]; exact hplace, fun i x hx => ?_⟩
    simp only [reportPlaces] at hplace
    simp only [List.length_append, List.length_singleton]
    obtain hold | hnew := Nat.lt_or_ge i u.queue.length
    · rw [List.getElem?_append_left hold] at hx
      rw [hnumbered i x hx]
      omega
    · rw [List.getElem?_append_right hnew, List.getElem?_singleton] at hx
      split at hx
      · cases hx
        simp only
        omega
      · cases hx
  · exact h.of_eq rfl rfl

theorem ReportUnit.Queued.drop {u : ReportUnit} (h : u.Queued) {r : LengthRecord} {rest : List LengthRecord} (hqueue : u.queue = r :: rest) :
    ({ u with queue := rest } : ReportUnit).Queued := by
  obtain ⟨hnext, hplaces, hnumbered⟩ := h
  rw [hqueue] at hplaces hnumbered
  simp only [List.length_cons] at hplaces hnumbered
  refine ⟨hnext, by simp only; omega, fun i x hx => ?_⟩
  rw [hnumbered (i + 1) x (by simpa using hx)]
  congr 1
  simp only
  omega

theorem ReportUnit.Change.queued {u v : ReportUnit} (hchange : ReportUnit.Change u v) (h : u.Queued) : v.Queued := by
  induction hchange with
  | next _ _ ihx ihy => exact ihy (ihx h)
  | take u r => exact h.take r
  | drop u r rest hqueue => exact h.drop hqueue
  | powerOn u => exact ⟨by decide, by decide, fun i r hr => by simp [ReportUnit.fresh] at hr⟩
  | _ => exact h.of_eq rfl rfl

/-! ### Counters and tally -/

/-- The counters and the tally keep to their widths. -/
structure ReportUnit.Counted (u : ReportUnit) : Prop where
  counters : u.counters.sound
  tally : u.tally.lengths ≤ 4294967295 ∧ u.tally.rejects ≤ 4294967295 ∧ u.tally.millis ≤ 4294967295

theorem ReportUnit.Change.counted {u v : ReportUnit} (hchange : ReportUnit.Change u v) (h : u.Counted) : v.Counted := by
  induction hchange with
  | next _ _ ihx ihy => exact ihy (ihx h)
  | same => exact h
  | marks u => exact ⟨h.counters, h.tally⟩
  | counts u counters hcounters => exact ⟨hcounters h.counters, h.tally⟩
  | take u r =>
      unfold ReportUnit.take
      split
      · exact ⟨h.counters, h.tally⟩
      · exact ⟨h.counters, Nat.min_le_left _ _, Nat.min_le_left _ _, Nat.min_le_left _ _⟩
  | drop u r rest hqueue => exact ⟨h.counters, h.tally⟩
  | zeroTally u => exact ⟨h.counters, by simp [Tally.zero]⟩
  | powerOn u => exact ⟨Counters.sound_zero, by simp [ReportUnit.fresh, Tally.zero]⟩

/-! ### The watchdog and the driver -/

/-- The watchdog's interval keeps to its range, with 0 its timer is stopped, and the driver is on only while a reply is sent. -/
structure LinkPort.Sound (l : LinkPort) : Prop where
  interval : l.interval = 0 ∨ 50 ≤ l.interval ∧ l.interval ≤ 60000
  stopped : l.interval = 0 → l.deadline = none
  driver : l.driver = true → l.reply.isSome = true

theorem watchdogSound_iff (s : State) : s.WatchdogSound ↔ s.link.Sound :=
  ⟨fun ⟨hinterval, hstopped, hdriver⟩ => ⟨hinterval, hstopped, hdriver⟩, fun h => ⟨h.interval, h.stopped, h.driver⟩⟩

theorem watchdogDeadline_zero {interval now : Nat} (h : interval = 0) : watchdogDeadline interval now = none := if_pos h

theorem LinkPort.Sound.accept {l : LinkPort} (h : l.Sound) (hdriver : l.driver = false) (now : Nat) (kind : Byte) (payload : List Byte) :
    (l.accept now kind payload).Sound := by
  simp only [LinkPort.accept]
  split
  · exact ⟨h.interval, watchdogDeadline_zero, fun _ => rfl⟩
  · exact ⟨h.interval, watchdogDeadline_zero, fun hd => by simp [hdriver] at hd⟩

theorem LinkPort.Sound.judged {s : State} (h : s.link.Sound) (hdriver : s.link.driver = false) (j : Judgement) :
    (s.judged j).link.Sound := by
  cases j with
  | whole kind payload =>
      simp only [State.judged, State.takeFrame]
      split
      · exact h
      · exact h.accept hdriver _ _ _
  | _ => exact h

theorem LinkPort.Sound.receive {s : State} (h : s.link.Sound) (b : Byte) : (s.receive b).link.Sound := by
  by_cases hdriver : s.link.driver = true
  · rwa [State.receive_of_driver hdriver]
  · have hoff := Bool.eq_false_iff.mpr hdriver
    have hpushed (r : Receiver) : (s.withReceiver r).link.Sound := ⟨h.interval, h.stopped, h.driver⟩
    rw [State.receive_eq hoff]
    generalize Receiver.push (addressOf s.link.straps) b s.link.receiver = p
    exact (hpushed p.1).judged hoff p.2

theorem intervalOf_range (n : Word16) : intervalOf n = 0 ∨ 50 ≤ intervalOf n ∧ intervalOf n ≤ 60000 := by
  unfold intervalOf
  split
  · exact .inl rfl
  · exact .inr (clamp_mem _ (by decide))

theorem linkSound_effect (c : Instr) (s : State) (h : s.link.Sound) : (effect c s).link.Sound := by
  by_cases htouch : .link ∈ touches c
  · cases c
    case powerOn straps high => exact ⟨.inl rfl, fun _ => rfl, fun hd => by cases hd⟩
    case watchdogExpiry =>
      simp only [effect]
      fun_cases State.expireWatchdog s
      case case2 => exact ⟨h.interval, fun _ => rfl, h.driver⟩
      all_goals exact h
    case frameGapTimeout =>
      simp only [effect, State.gap, State.withReceiver]
      split <;> exact ⟨h.interval, h.stopped, h.driver⟩
    case linkFrame bs => exact foldl_keeps (P := fun s : State => s.link.Sound) (fun _ b h => LinkPort.Sound.receive h b) bs h
    case replySent =>
      simp only [effect]
      fun_cases State.sendReply s
      case case2 => exact ⟨h.interval, watchdogDeadline_zero, fun hd => by cases hd⟩
      case case3 => exact ⟨h.interval, h.stopped, fun hd => by cases hd⟩
      all_goals exact h
    case setWatchdog n => exact ⟨intervalOf_range n, watchdogDeadline_zero, h.driver⟩
    case supplyFailure landed => exact ⟨h.interval, h.stopped, fun hd => by cases hd⟩
    all_goals simp [touches] at htouch
  · have hlink : (effect c s).link = s.link := effect_frame c s htouch
    rwa [hlink]

theorem State.report_passMillisecond (s : State) : s.passMillisecond.report = s.report := by
  unfold State.passMillisecond
  split <;> rfl

/-- Settles O13, by what a command can do to the report unit, and by what changes the link port. -/
theorem stepKeepsReportsCountersAndWatchdog : Obligations.StepKeepsReportsCountersAndWatchdog := by
  unfold Obligations.StepKeepsReportsCountersAndWatchdog
  refine ⟨fun s t h hstep => ?_, fun s t h hstep => ?_, fun s t h hstep => ?_⟩
  · rw [reportsSound_iff] at h ⊢
    refine step_keeps (P := fun s => s.report.Queued) (fun _ _ h => h) (fun s h => ?_) (fun _ _ _ h => h)
      (fun c s h => (effect_report c s).queued h) s t h hstep
    rwa [State.report_passMillisecond]
  · obtain ⟨hcounters, htally⟩ := h
    refine (fun h : t.report.Counted => ⟨h.counters, h.tally⟩) ?_
    refine step_keeps (P := fun s => s.report.Counted) (fun _ _ h => h) (fun s h => ?_) (fun _ _ _ h => h)
      (fun c s h => (effect_report c s).counted h) s t ⟨hcounters, htally⟩ hstep
    rwa [State.report_passMillisecond]
  · rw [watchdogSound_iff] at h ⊢
    refine step_keeps (P := fun s => s.link.Sound) (fun _ _ h => h) (fun s h => ?_)
      (fun _ _ _ h => ⟨h.interval, h.stopped, fun _ => rfl⟩) linkSound_effect s t h hstep
    unfold State.passMillisecond
    split
    · refine ⟨h.interval, h.stopped, fun hd => ?_⟩
      simp only [State.link_withLink, LinkPort.drive, Bool.or_eq_true] at hd
      exact hd.elim h.driver id
    · exact h

end Sys2Proof.Machine
end

section
/-! The link port: what the receiver makes of a frame, and what enters service (R153 to R157). -/

namespace Sys2Proof.Machine

/-! ### The bytes of a frame -/

@[simp] theorem byteAt_append_right (p q : List Byte) (i : Nat) : byteAt (p ++ q) (p.length + i) = byteAt q i := by
  simp only [byteAt, List.getD_eq_getElem?_getD, List.getElem?_append_right (Nat.le_add_right _ _), Nat.add_sub_cancel_left]

theorem word16At_append_right (p q : List Byte) (i : Nat) : word16At (p ++ q) (p.length + i) = word16At q i := by
  rw [word16At, word16At, Nat.add_assoc, byteAt_append_right, byteAt_append_right]

/-- What stands in a frame before the payload, the start byte apart: address, kind and payload length (R154). -/
def frameHeader (address kind : Byte) (w : Word16) : List Byte := [address, kind] ++ bytes16 w

theorem frameOf_eq (address kind : Byte) (p : List Byte) : frameOf address kind p = 0xA5 :: (frameHeader address kind (BitVec.ofNat 16 p.length)
    ++ (p ++ bytes16 (crc16 (frameHeader address kind (BitVec.ofNat 16 p.length) ++ p)))) := by
  simp [frameOf, frameHeader, le16]

theorem length_frameHeader (address kind : Byte) (w : Word16) : (frameHeader address kind w).length = 4 := rfl

theorem toNat_ofNat_of_le {n : Nat} (h : n ≤ 1024) : (BitVec.ofNat 16 n).toNat = n := by
  rw [BitVec.toNat_ofNat]
  omega

/-- A frame whose length field is out of range is judged at once (R155). -/
theorem judgeFrame_long (own address kind : Byte) {w : Word16} (h : 1024 < w.toNat) :
    judgeFrame own (frameHeader address kind w) = (.hunt, if address = own then .badLength else .nothing) := by
  have hlength : (word16At (frameHeader address kind w) 2).toNat = w.toNat := congrArg _ (word16_join w)
  have haddress : byteAt (frameHeader address kind w) 0 = address := rfl
  simp only [judgeFrame, length_frameHeader, hlength, haddress, h, Nat.lt_irrefl, if_false, if_true, beq_iff_eq]

/-- A frame not yet whole is read on. -/
theorem judgeFrame_part (own address kind : Byte) {w : Word16} (hw : w.toNat ≤ 1024) {q : List Byte} (hq : q.length < w.toNat + 2) :
    judgeFrame own (frameHeader address kind w ++ q) = (.frame (frameHeader address kind w ++ q), .nothing) := by
  have hlength : (word16At (frameHeader address kind w ++ q) 2).toNat = w.toNat := congrArg _ (word16_join w)
  have hpart : (frameHeader address kind w ++ q).length < w.toNat + 6 := by
    simp only [List.length_append, length_frameHeader]
    omega
  have hlong : ¬ (frameHeader address kind w ++ q).length < 4 := by simp [length_frameHeader]
  simp only [judgeFrame, hlength, hlong, hpart, if_false, if_true, Std.not_lt.mpr hw]

/-- A whole frame is judged by its address and its check value (R155). -/
theorem judgeFrame_whole (own address kind : Byte) {w : Word16} (hw : w.toNat ≤ 1024) {p : List Byte} (hp : p.length = w.toNat)
    (check : Word16) : judgeFrame own (frameHeader address kind w ++ (p ++ bytes16 check)) =
      (.hunt, if address = own then if crc16 (frameHeader address kind w ++ p) = check then .whole kind p else .corrupt else .nothing) := by
  have hlength : (word16At (frameHeader address kind w ++ (p ++ bytes16 check)) 2).toNat = w.toNat := congrArg _ (word16_join w)
  have haddress : byteAt (frameHeader address kind w ++ (p ++ bytes16 check)) 0 = address := rfl
  have hkind : byteAt (frameHeader address kind w ++ (p ++ bytes16 check)) 1 = kind := rfl
  have hwhole : (frameHeader address kind w ++ (p ++ bytes16 check)).length = w.toNat + 6 := by
    simp only [List.length_append, length_frameHeader, hp, bytes16_length]
    omega
  have hbody : (frameHeader address kind w ++ p).length = w.toNat + 4 := by
    simp only [List.length_append, length_frameHeader, hp]
    omega
  have hcheck : word16At (frameHeader address kind w ++ (p ++ bytes16 check)) (w.toNat + 4) = check := by
    rw [← List.append_assoc, ← hbody, ← Nat.add_zero (List.length _), word16At_append_right, word16At_alone]
  have htake : (frameHeader address kind w ++ (p ++ bytes16 check)).take (w.toNat + 4) = frameHeader address kind w ++ p := by
    rw [← List.append_assoc, ← hbody, List.take_left]
  have hpayload : ((frameHeader address kind w ++ (p ++ bytes16 check)).drop 4).take w.toNat = p := by
    rw [← length_frameHeader address kind w, List.drop_left, ← hp, List.take_left]
  have hlong : ¬ w.toNat + 6 < 4 := by omega
  simp only [judgeFrame, hlength, haddress, hkind, hwhole, hcheck, htake, hpayload, hlong, Std.not_lt.mpr hw, Nat.lt_irrefl, if_false]
  by_cases hown : address = own
  · by_cases hcrc : crc16 (frameHeader address kind w ++ p) = check <;> simp only [hown, hown ▸ hcrc] <;> simp
  · simp [hown]

/-! ### A frame received -/

theorem State.withReceiver_self {s : State} {r : Receiver} (h : s.link.receiver = r) : s.withReceiver r = s := by
  subst h
  rfl

/-- A byte after the start byte is judged with what was read before it. -/
theorem State.receive_step {s : State} (hdriver : s.link.driver = false) {got : List Byte} {b : Byte} {r : Receiver} {j : Judgement}
    (hp : judgeFrame (addressOf s.link.straps) (got ++ [b]) = (r, j)) :
    (s.withReceiver (.frame got)).receive b = (s.withReceiver r).judged j := by
  rw [State.receive_eq (s := s.withReceiver (.frame got)) hdriver]
  show ((s.withReceiver (.frame got)).withReceiver (judgeFrame (addressOf s.link.straps) (got ++ [b])).1).judged
    (judgeFrame (addressOf s.link.straps) (got ++ [b])).2 = _
  rw [hp]
  rfl

/-- The start byte and the three bytes before the last of the header are read without a judgement. -/
theorem State.receive_header {s : State} (hdriver : s.link.driver = false) (hhunt : s.link.receiver = .hunt) (address kind : Byte)
    (w : Word16) {r : Receiver} {j : Judgement} (hp : judgeFrame (addressOf s.link.straps) (frameHeader address kind w) = (r, j)) :
    (0xA5 :: frameHeader address kind w).foldl State.receive s = (s.withReceiver r).judged j := by
  have hstart : s.receive 0xA5 = s.withReceiver (.frame []) := by
    rw [State.receive_eq hdriver, hhunt]
    rfl
  have hshort (got : List Byte) (b : Byte) (h : got.length < 3) :
      (s.withReceiver (.frame got)).receive b = s.withReceiver (.frame (got ++ [b])) :=
    State.receive_step (j := .nothing) hdriver (by
      have hshorter : (got ++ [b]).length < 4 := by rw [List.length_append]; exact Nat.succ_lt_succ h
      rw [judgeFrame, if_pos hshorter])
  have hlast : (s.withReceiver (.frame [address, kind, w.extractLsb' 0 8])).receive (w.extractLsb' 8 8)
      = (s.withReceiver r).judged j := State.receive_step hdriver hp
  simp only [frameHeader, bytes16, List.cons_append, List.nil_append, List.foldl_cons, List.foldl_nil, hstart]
  rw [hshort _ _ (by decide), hshort _ _ (by simp), hshort _ _ (by simp)]
  exact hlast

/-- The bytes of a frame up to its last are read without a judgement. -/
theorem State.receive_body {s : State} (hdriver : s.link.driver = false) (address kind : Byte) {w : Word16} (hw : w.toNat ≤ 1024)
    (bs q : List Byte) (hlength : q.length + bs.length < w.toNat + 2) :
    bs.foldl State.receive (s.withReceiver (.frame (frameHeader address kind w ++ q))) =
      s.withReceiver (.frame (frameHeader address kind w ++ (q ++ bs))) := by
  induction bs generalizing q with
  | nil => simp
  | cons b bs ih =>
      have hb : (s.withReceiver (.frame (frameHeader address kind w ++ q))).receive b
          = s.withReceiver (.frame (frameHeader address kind w ++ (q ++ [b]))) := by
        refine State.receive_step (j := .nothing) hdriver ?_
        rw [List.append_assoc]
        refine judgeFrame_part _ _ _ hw ?_
        simp only [List.length_append, List.length_cons, List.length_nil] at hlength ⊢
        omega
      rw [List.foldl_cons, hb, ih (q ++ [b])]
      · simp
      · simp only [List.length_append, List.length_cons, List.length_nil] at hlength ⊢
        omega

/-- A whole frame is judged at its last byte. -/
theorem State.receive_frame {s : State} (hdriver : s.link.driver = false) (hhunt : s.link.receiver = .hunt) (address kind : Byte)
    {w : Word16} (hw : w.toNat ≤ 1024) {p : List Byte} (hp : p.length = w.toNat) (check : Word16) :
    (0xA5 :: (frameHeader address kind w ++ (p ++ bytes16 check))).foldl State.receive s =
      s.judged (if address = addressOf s.link.straps then
        if crc16 (frameHeader address kind w ++ p) = check then .whole kind p else .corrupt else .nothing) := by
  have hheader : (0xA5 :: frameHeader address kind w).foldl State.receive s = s.withReceiver (.frame (frameHeader address kind w)) := by
    have hpart := judgeFrame_part (addressOf s.link.straps) address kind hw (q := []) (by simp)
    rw [List.append_nil] at hpart
    exact State.receive_header hdriver hhunt address kind w hpart
  have hinit := State.receive_body hdriver address kind hw (p ++ [check.extractLsb' 0 8]) [] (by simp [hp])
  rw [List.append_nil, List.nil_append] at hinit
  have hsplit : (0xA5 :: (frameHeader address kind w ++ (p ++ bytes16 check)) : List Byte) =
      (0xA5 :: frameHeader address kind w) ++ ((p ++ [check.extractLsb' 0 8]) ++ [check.extractLsb' 8 8]) := by simp [bytes16]
  rw [hsplit, List.foldl_append, hheader, List.foldl_append, hinit, List.foldl_cons, List.foldl_nil]
  have hwhole := judgeFrame_whole (addressOf s.link.straps) address kind hw hp check
  generalize (if address = addressOf s.link.straps then
        if crc16 (frameHeader address kind w ++ p) = check then Judgement.whole kind p else .corrupt else .nothing) = j at hwhole ⊢
  rw [State.receive_step (r := .hunt) (j := j) hdriver]
  · rw [State.withReceiver_self hhunt]
  · rw [List.append_assoc, List.append_assoc]
    exact hwhole

/-- A frame as its sender forms it: whole where it is the part's own, passed over where it is foreign (R154, R155). -/
theorem State.receive_frameOf {s : State} (hdriver : s.link.driver = false) (hhunt : s.link.receiver = .hunt) (address kind : Byte)
    {p : List Byte} (hp : p.length ≤ 1024) : (frameOf address kind p).foldl State.receive s =
      s.judged (if address = addressOf s.link.straps then .whole kind p else .nothing) := by
  have hw := toNat_ofNat_of_le hp
  rw [frameOf_eq, State.receive_frame hdriver hhunt address kind (Nat.le_trans (Nat.le_of_eq hw) hp) hw.symm, if_pos rfl]

theorem exec_linkFrame {s : State} (h : s.powered = true) (bs : List Byte) :
    exec (.linkFrame bs) s = .next (bs.foldl State.receive s) := State.event_powered (fun s => bs.foldl State.receive s) h

/-! ### What enters service -/

/-- A well-formed request is read back from its own payload, by the lemma of each command. -/
theorem requestOf_payloadOf (c : Instr) : Laws.Request.Statement c := by
  cases c with
  | status => exact Laws.Request.status
  | ident => exact Laws.Request.ident
  | setHead head record => exact Laws.Request.setHead head record
  | setCurve head points => exact Laws.Request.setCurve head points
  | setFeature feature record => exact Laws.Request.setFeature feature record
  | clearFeature feature => exact Laws.Request.clearFeature feature
  | setLimits feature limits => exact Laws.Request.setLimits feature limits
  | setThermal record => exact Laws.Request.setThermal record
  | setLine record => exact Laws.Request.setLine record
  | setIdentity die revision alloy strands => exact Laws.Request.setIdentity die revision alloy strands
  | readCard part index => exact Laws.Request.readCard part index
  | bankLoad bank => exact Laws.Request.bankLoad bank
  | bankStore bank => exact Laws.Request.bankStore bank
  | bankLock bank mode => exact Laws.Request.bankLock bank mode
  | bankInfo => exact Laws.Request.bankInfo
  | setBoot bank => exact Laws.Request.setBoot bank
  | runStart => exact Laws.Request.runStart
  | billetJoin => exact Laws.Request.billetJoin
  | stop => exact Laws.Request.stop
  | resume => exact Laws.Request.resume
  | runEnd => exact Laws.Request.runEnd
  | runClose => exact Laws.Request.runClose
  | withdraw strand => exact Laws.Request.withdraw strand
  | setTrigger mode => exact Laws.Request.setTrigger mode
  | triggerOnce => exact Laws.Request.triggerOnce
  | headCheck mask exposure => exact Laws.Request.headCheck mask exposure
  | headInfo => exact Laws.Request.headInfo
  | gaugeLatch mask => exact Laws.Request.gaugeLatch mask
  | gaugeRead strand => exact Laws.Request.gaugeRead strand
  | trackRead strand start => exact Laws.Request.trackRead strand start
  | reportRead => exact Laws.Request.reportRead
  | reportDrop sequence => exact Laws.Request.reportDrop sequence
  | readCounters => exact Laws.Request.readCounters
  | clearCounters => exact Laws.Request.clearCounters
  | clearFlags mask tally => exact Laws.Request.clearFlags mask tally
  | setAlarmMask mask => exact Laws.Request.setAlarmMask mask
  | setWatchdog interval => exact Laws.Request.setWatchdog interval
  | forceFailsafe => exact Laws.Request.forceFailsafe
  | clearFailsafe => exact Laws.Request.clearFailsafe
  | restart => exact Laws.Request.restart
  | _ =>
      intro _ k h
      cases h

/-- A kind that names a request is a byte that asks for a payload of at most 1,024 bytes. -/
theorem lengthOf_le {k n : Nat} (h : lengthOf k = some n) : n ≤ 1024 := by
  unfold lengthOf at h
  split at h <;> simp only [Option.some.injEq, reduceCtorEq] at h <;> omega

theorem kindOf_lt {c : Instr} {k : Nat} (h : kindOf c = some k) : k < 37 := by
  cases c <;> simp only [kindOf, Option.some.injEq, reduceCtorEq] at h <;> omega

theorem toNat_byte {n : Nat} (h : n < 256) : (byte n).toNat = n := by
  rw [byte, BitVec.toNat_ofNat]
  omega

/-- Settles O14: the frame is read to its end, its check value agrees, and its payload is read back as the request. -/
theorem requestFrameEntersService : Obligations.RequestFrameEntersService := by
  unfold Obligations.RequestFrameEntersService
  intro s c k hpowered hhunt hdriver hservice hwf hkind
  obtain ⟨hlength, hrequest⟩ := requestOf_payloadOf c hwf k hkind
  have hbyte : (byte k).toNat = k := toNat_byte (Nat.lt_trans (kindOf_lt hkind) (by decide))
  have hexamine : examine (byte k) (payloadOf c) = .pass c := by simp [examine, hbyte, hlength, hrequest]
  rw [exec_linkFrame hpowered, State.receive_frameOf hdriver hhunt _ _ (lengthOf_le hlength), if_pos rfl]
  simp [State.judged, State.takeFrame, hservice, LinkPort.accept, hexamine, State.withLink, watchdogDeadline]

/-- Settles O15, by the receiver on each frame. -/
theorem discardedFramesAreCounted : Obligations.DiscardedFramesAreCounted := by
  unfold Obligations.DiscardedFramesAreCounted
  refine ⟨fun s hpowered => ?_, fun s bs hpowered hdriver => ?_, fun s kind p hpowered hhunt hdriver hp => ?_⟩
  · have hexec : exec .frameGapTimeout s = .next s.gap := State.event_powered State.gap hpowered
    rw [hexec]
    refine ⟨fun hhunt => ?_, fun got hframe hother => ?_, fun got hframe hown => ?_⟩
    · have habandons : s.link.receiver.abandonsOwn (addressOf s.link.straps) = false := by rw [hhunt]; rfl
      rw [State.gap, habandons]
      exact congrArg _ (State.withReceiver_self hhunt)
    · have habandons : s.link.receiver.abandonsOwn (addressOf s.link.straps) = false := by
        cases got with
        | nil => rw [hframe]; rfl
        | cons a rest => simpa [hframe, Receiver.abandonsOwn] using hother
      rw [State.gap, habandons]
      rfl
    · have habandons : s.link.receiver.abandonsOwn (addressOf s.link.straps) = true := by
        cases got with
        | nil => cases hown
        | cons a rest => simpa [hframe, Receiver.abandonsOwn] using hown
      rw [State.gap, habandons]
      rfl
  · rw [exec_linkFrame hpowered]
    refine congrArg _ ?_
    induction bs with
    | nil => rfl
    | cons b bs ih => rw [List.foldl_cons, State.receive_of_driver hdriver, ih]
  · refine ⟨fun v hv => ?_, fun a ha => ?_, fun a w ha hw => ?_, fun body w hbody hw => ?_, fun w hw => ?_⟩
    · rw [exec_linkFrame hpowered, State.receive_frameOf hdriver hhunt _ _ hp, if_pos rfl]
      simp only [State.judged, State.takeFrame, hv]
      rfl
    · rw [exec_linkFrame hpowered, State.receive_frameOf hdriver hhunt _ _ hp, if_neg ha]
      rfl
    · rw [exec_linkFrame hpowered]
      have hjudged := State.receive_header hdriver hhunt a kind w (judgeFrame_long _ a kind hw)
      rw [if_neg ha, State.withReceiver_self hhunt] at hjudged
      exact congrArg _ hjudged
    · have hlength := toNat_ofNat_of_le hp
      have hframe : (0xA5 :: body ++ bytes16 w : List Byte) =
          0xA5 :: (frameHeader (addressOf s.link.straps) kind (BitVec.ofNat 16 p.length) ++ (p ++ bytes16 w)) := by
        rw [hbody]
        simp [frameHeader, le16]
      have hcrc : crc16 (frameHeader (addressOf s.link.straps) kind (BitVec.ofNat 16 p.length) ++ p) ≠ w := by
        rw [hbody] at hw
        exact fun h => hw h.symm
      rw [exec_linkFrame hpowered, hframe, State.receive_frame hdriver hhunt _ _ (Nat.le_trans (Nat.le_of_eq hlength) hp) hlength.symm, if_pos rfl,
        if_neg hcrc]
      rfl
    · rw [exec_linkFrame hpowered]
      have hjudged := State.receive_header hdriver hhunt _ kind w (judgeFrame_long _ (addressOf s.link.straps) kind hw)
      rw [if_pos rfl, State.withReceiver_self hhunt] at hjudged
      exact congrArg _ hjudged

/-- No press event has a code above 4 (R94). -/
theorem pressEvent_of_ge {code : Byte} (h : 5 ≤ code.toNat) : pressEvent code = none := by
  have hother {n : Byte} (hn : n.toNat < 5) : code ≠ n := by
    rintro rfl
    omega
  simp only [pressEvent, hother (n := 0) (by decide), hother (n := 1) (by decide), hother (n := 2) (by decide),
    hother (n := 3) (by decide), hother (n := 4) (by decide), if_false]

/-- The kind of a reply, by the number of the request's kind (R154). -/
theorem replyKind_eq (kind : Byte) : replyKind kind = if kind.toNat < 128 then kind + 0x80 else 0xFF := by
  have hle : 0x80 ≤ kind ↔ ¬ kind.toNat < 128 := by
    rw [BitVec.le_def, Std.not_lt]
    rfl
  unfold replyKind
  by_cases h : kind.toNat < 128
  · rw [if_pos h, if_neg (mt hle.mp (Decidable.not_not.mpr h))]
  · rw [if_neg h, if_pos (hle.mpr h)]

/-- Settles O16: the examination of a kind, of a payload's length and of a press event's code. -/
theorem linkPortExaminesRequests : Obligations.LinkPortExaminesRequests := by
  unfold Obligations.LinkPortExaminesRequests
  intro s kind p r hpowered hhunt hdriver hservice hp hcase
  have hexamine : examine kind p = .answer (refused r) := by
    obtain ⟨hkind, rfl⟩ | ⟨⟨n, hkind, hn⟩, rfl⟩ | ⟨⟨rfl, code, rfl, hcode⟩, rfl⟩ := hcase
    · simp [examine, hkind]
    · simp [examine, hkind, hn]
    · simp [examine, lengthOf, requestOf, pressEvent_of_ge hcode]
  rw [exec_linkFrame hpowered, State.receive_frameOf hdriver hhunt _ _ hp, if_pos rfl, ← replyKind_eq]
  simp [State.judged, State.takeFrame, hservice, LinkPort.accept, hexamine, State.withLink, watchdogDeadline, refused]

end Sys2Proof.Machine
end

section
/-! A reply sent, RESTART, POWER_ON and a supply failure (R150, R151, R153, R156, R162). -/

namespace Sys2Proof.Machine

/-- The reply of a RESTART carried out (R162). -/
theorem Reply.restarts_iff (r : Reply) : r.restarts = true ↔ r.kind = 0xA4 ∧ r.body.status = .ok := by
  have hkind : replyKind (kindByteOf .restart) = 0xA4 := by decide
  simp [Reply.restarts, hkind]

theorem ScanAssembler.slots_fresh (c : Card) (headTx : List (List Byte)) (i : Fin 4) :
    (ScanAssembler.fresh c headTx).slots[i] = none := by
  simp [ScanAssembler.fresh]

theorem ScanAssembler.heads_fresh (c : Card) (headTx : List (List Byte)) (h : Fin 8) :
    (ScanAssembler.fresh c headTx).heads[h] =
      { state := if c.heads[h].enabled then .ok else .offline, miss := 0, sparse := 0, lastLine := none, check := .none } := by
  simp [ScanAssembler.fresh, HeadEntry.fresh]

theorem freshThermal_get (t : ThermalSection) (now : Nat) (i : Fin 4) : (freshThermal t now)[i] = ThermalRecord.fresh t now := by
  simp [freshThermal]

theorem SectionEngine.stale_fresh (i : Fin 4) : SectionEngine.fresh.stale[i] = false := by
  simp [SectionEngine.fresh]

theorem SectionEngine.persistence_fresh (i : Fin 4) (f : Fin 32) : SectionEngine.fresh.persistence[i][f] = Persistence.clear := by
  simp [SectionEngine.fresh, clearedPersistence]

theorem SectionEngine.last_fresh (i : Fin 4) : SectionEngine.fresh.last[i] = none := by
  simp [SectionEngine.fresh]

theorem Tracker.strands_fresh (count : Nat) (i : Fin 4) :
    (Tracker.fresh count).strands[i] = Strand.fresh (if i.val < count then .idle else .absent) 0 := by
  simp [Tracker.fresh]

theorem replicate_get {α : Type} {n : Nat} (x : α) (i : Fin n) : (Vector.replicate n x)[i] = x := by simp

/-- Settles O17: the three cases of a reply sent. -/
theorem replySentEndsServiceAndRestarts : Obligations.ReplySentEndsServiceAndRestarts := by
  unfold Obligations.ReplySentEndsServiceAndRestarts
  intro s hpowered
  have hexec : exec .replySent s = .next s.sendReply := State.event_powered State.sendReply hpowered
  rw [hexec]
  refine ⟨fun hnone => ?_, fun r hreply hplain => ?_, fun r hreply hkind hstatus => ?_⟩
  · rw [State.sendReply, hnone]
  · have hrestarts : ¬ r.restarts = true := fun h => hplain ((Reply.restarts_iff r).mp h)
    simp only [State.sendReply, hreply, hrestarts]
    rfl
  · have hrestarts : r.restarts = true := (Reply.restarts_iff r).mpr ⟨hkind, hstatus⟩
    refine ⟨(s.withLink (s.link.send r)).restarted, by simp only [State.sendReply, hreply, hrestarts, if_true], rfl, rfl, ?_⟩
    exact ⟨ScanAssembler.slots_fresh _ _, rfl, rfl, ScanAssembler.heads_fresh _ _, freshThermal_get _ _, SectionEngine.stale_fresh,
      SectionEngine.persistence_fresh, SectionEngine.last_fresh, rfl, rfl, Tracker.strands_fresh _, rfl, replicate_get _, rfl, rfl, rfl,
      hpowered, rfl⟩

/-! ### POWER_ON -/

theorem ReportUnit.flags_fresh_raiseIf (b : Bool) : (ReportUnit.fresh.raiseIf b .bankError).flags = if b then 65#11 else 1#11 := by
  cases b <;> decide

theorem bootCard_unset (banks : Vector Bank 8) : bootCard banks none = (Card.empty, digestOf Card.empty) := rfl

theorem bootCard_of_sound {banks : Vector Bank 8} {b : Fin 8} (hvalid : banks[b].valid = true) (hintact : banks[b].intact = true) :
    bootCard banks (some b) = (banks[b].content.asCard, banks[b].digest) := by
  simp only [bootCard, hvalid, hintact, Bool.and_self, if_true]

theorem bootCard_of_unsound {banks : Vector Bank 8} {b : Fin 8} (h : banks[b].valid = false ∨ banks[b].intact = false) :
    bootCard banks (some b) = (Card.empty, digestOf Card.empty) := by
  have hboth : (banks[b].valid && banks[b].intact) = false := by
    obtain h | h := h <;> simp only [h, Bool.false_and, Bool.and_false]
  simp only [bootCard, hboth, Bool.false_eq_true, if_false]

/-- A bank at power-on differs in its lock alone. -/
theorem Bank.powerOn_eq (b : Bank) : b.powerOn = { b with lock := if b.lock = .held then .unlocked else b.lock } := by
  unfold Bank.powerOn
  split <;> rfl

theorem CardStore.banks_powerOn (x : CardStore) (i : Fin 8) : x.powerOn.banks[i] = x.banks[i].powerOn := by
  simp [CardStore.powerOn]

theorem Bank.valid_powerOn (b : Bank) : b.powerOn.valid = b.valid := by rw [Bank.powerOn_eq]

theorem Bank.intact_powerOn (b : Bank) : b.powerOn.intact = b.intact := by rw [Bank.powerOn_eq]; rfl

theorem BankContent.asCard_canonical {c : Card} (h : c.inRange = true) : (BankContent.bytes (canonical c)).asCard = c := by
  rw [BankContent.asCard, cardOfContent_canonical h, Option.getD_some]

/-- Settles O19: the working card by the cases of the boot bank, and every block's power-on values. -/
theorem powerOnTakesBootBank : Obligations.PowerOnTakesBootBank := by
  unfold Obligations.PowerOnTakesBootBank
  intro s straps high
  have hboot (card : Card × Word32) (h : bootCard s.store.powerOn.banks s.store.boot = card) :
      (s.poweredOn straps high).store.card = card.1 ∧ (s.poweredOn straps high).store.digest = card.2 := by
    rw [← h]
    exact ⟨rfl, rfl⟩
  have hflags (fails : Bool) (h : bootFails s.store.banks s.store.boot = fails) :
      (s.poweredOn straps high).report.flags = if fails then 65#11 else 1#11 := by
    rw [← h, ← ReportUnit.flags_fresh_raiseIf]
    rfl
  refine ⟨s.poweredOn straps high, rfl, rfl, rfl, rfl, rfl, replicate_get _, fun b => ?_, fun hnone => ?_, fun b hb hvalid => ?_,
    fun b hb hvalid hintact => ?_, fun b hb hvalid hintact => ?_, rfl, rfl, rfl, ScanAssembler.slots_fresh _ _, rfl, rfl,
    ScanAssembler.heads_fresh _ _, freshThermal_get _ _, SectionEngine.stale_fresh, SectionEngine.persistence_fresh,
    SectionEngine.last_fresh, rfl, rfl, Tracker.strands_fresh _, rfl, replicate_get _, ?_⟩
  · exact (CardStore.banks_powerOn s.store b).trans (Bank.powerOn_eq _)
  · obtain ⟨hcard, hdigest⟩ := hboot (Card.empty, digestOf Card.empty) (by rw [hnone, bootCard_unset])
    exact ⟨hcard, hdigest, hflags false (by rw [hnone]; rfl)⟩
  · obtain ⟨hcard, hdigest⟩ := hboot (Card.empty, digestOf Card.empty) (by
      rw [hb]
      exact bootCard_of_unsound (.inl (by rw [CardStore.banks_powerOn, Bank.valid_powerOn, hvalid])))
    exact ⟨hcard, hdigest, hflags false (by simp only [bootFails, hb, hvalid, Bool.false_and])⟩
  · obtain ⟨hcard, hdigest⟩ := hboot (Card.empty, digestOf Card.empty) (by
      rw [hb]
      exact bootCard_of_unsound (.inr (by rw [CardStore.banks_powerOn, Bank.intact_powerOn, hintact])))
    exact ⟨hcard, hdigest, hflags true (by simp only [bootFails, hb, hvalid, hintact, Bool.not_false, Bool.and_self])⟩
  · obtain ⟨hcard, hdigest⟩ := hboot (s.store.banks[b].content.asCard, s.store.banks[b].digest) (by
      rw [hb, bootCard_of_sound]
      · rw [CardStore.banks_powerOn, Bank.powerOn_eq]
      · rw [CardStore.banks_powerOn, Bank.valid_powerOn, hvalid]
      · rw [CardStore.banks_powerOn, Bank.intact_powerOn, hintact])
    refine ⟨hdigest, hflags false (by simp only [bootFails, hb, hvalid, hintact, Bool.not_true, Bool.and_false]), fun c hc => ?_,
      fun c hrange hc => ?_⟩
    · exact hcard.trans (by simp only [hc]; rfl)
    · exact hcard.trans (by simp only [hc]; exact BankContent.asCard_canonical hrange)
  · have hrest (fails : Bool) : (ReportUnit.fresh.raiseIf fails .bankError).nextSequence = 0
        ∧ (ReportUnit.fresh.raiseIf fails .bankError).queue = [] ∧ (ReportUnit.fresh.raiseIf fails .bankError).tally = Tally.zero
        ∧ (ReportUnit.fresh.raiseIf fails .bankError).mask = 0#11
        ∧ (∀ i, (ReportUnit.fresh.raiseIf fails .bankError).latches[(i : Fin 4)] = none)
        ∧ (ReportUnit.fresh.raiseIf fails .bankError).counters = Counters.zero := by
      cases fails <;> exact ⟨rfl, rfl, rfl, rfl, replicate_get _, rfl⟩
    obtain ⟨hnext, hqueue, htally, hmask, hlatches, hcounters⟩ := hrest (bootFails s.store.banks s.store.boot)
    exact ⟨hnext, hqueue, htally, hmask, hlatches, hcounters, rfl, rfl, rfl, rfl, rfl, rfl, rfl⟩

end Sys2Proof.Machine
end

section
/-! The writes of the card store by the first case that applies, and what a supply failure leaves of them (R146, R149 to R151). -/

namespace Sys2Proof.Machine

/-! ### The fields of the requests -/

theorem indexOf_of_ge {n : Nat} {b : Byte} (h : n ≤ b.toNat) : indexOf n b = none := by
  rw [indexOf, dif_neg (by omega)]

theorem indexOf_of_lt {n : Nat} {b : Byte} (h : b.toNat < n) : indexOf n b = some ⟨b.toNat, h⟩ := by
  rw [indexOf, dif_pos h]

theorem indexOf_eq_none_iff {n : Nat} {b : Byte} : indexOf n b = none ↔ n ≤ b.toNat := by
  refine ⟨fun h => ?_, indexOf_of_ge⟩
  obtain hlt | hge := Nat.lt_or_ge b.toNat n
  · rw [indexOf_of_lt hlt] at h
    cases h
  · exact hge

theorem indexOf_eq_some_iff {n : Nat} {b : Byte} {i : Fin n} : indexOf n b = some i ↔ b.toNat = i.val := by
  by_cases h : b.toNat < n
  · rw [indexOf_of_lt h, Option.some.injEq, Fin.ext_iff]
  · rw [indexOf_of_ge (Std.not_lt.mp h)]
    exact iff_of_false (fun h => by cases h) (by have := i.isLt; omega)

theorem lockOf_fixed_iff (m : Byte) : lockOf m = some .fixed ↔ m = 2 := by
  unfold lockOf
  split
  · next h0 =>
    subst h0
    decide
  · split
    · next h1 =>
      subst h1
      decide
    · split
      · next h2 => exact iff_of_true rfl h2
      · next h2 => exact iff_of_false (fun h => by cases h) h2

/-- A boot bank that is none of the eight and not FFh is no boot bank (R150). -/
theorem bootOf_of_ge {b : Byte} (h : 8 ≤ b.toNat) (hff : b ≠ 0xFF) : bootOf b = none := by
  rw [bootOf, if_neg hff, indexOf_of_ge h]

/-! ### BANK_STORE, BANK_LOCK, SET_BOOT -/

theorem CardStore.storeBank_badValue {b : Byte} (x : CardStore) (h : indexOf 8 b = none) :
    x.storeBank b = (x, refused .badValue) := by
  rw [CardStore.storeBank, h]

theorem CardStore.storeBank_protected {b : Byte} {i : Fin 8} {x : CardStore} (h : indexOf 8 b = some i)
    (hlock : x.banks[i].lock ≠ .unlocked) : x.storeBank b = (x, refused .isProtected) := by
  simp only [CardStore.storeBank, h]
  rw [if_pos hlock]

theorem CardStore.storeBank_busy {b : Byte} {i : Fin 8} {x : CardStore} (h : indexOf 8 b = some i)
    (hlock : x.banks[i].lock = .unlocked) (hengine : x.engine ≠ .idle) : x.storeBank b = (x, refused .busy) := by
  simp only [CardStore.storeBank, h]
  rw [if_neg (Decidable.not_not.mpr hlock), if_pos hengine]

theorem CardStore.storeBank_started {b : Byte} {i : Fin 8} {x : CardStore} (h : indexOf 8 b = some i)
    (hlock : x.banks[i].lock = .unlocked) (hengine : x.engine = .idle) : x.storeBank b = (x.startStore i, okReply []) := by
  simp only [CardStore.storeBank, h]
  rw [if_neg (Decidable.not_not.mpr hlock), if_neg (Decidable.not_not.mpr hengine)]

/-- A lock written: the bank's lock, and a SUSPENDED engine resumed where it was written under suspension (R148, R149). -/
theorem CardStore.setLock_eq (x : CardStore) (i : Fin 8) (l : Lock) : x.setLock i l =
    if l = .fixed ∧ x.banks[i].lock ≠ .fixed then x.resume.putBank i { x.banks[i] with lock := l }
    else x.putBank i { x.banks[i] with lock := l } := by
  simp only [CardStore.setLock]
  split
  · exact CardStore.suspending_lock x i l
  · rfl

@[simp] theorem CardStore.boot_resume (x : CardStore) : x.resume.boot = x.boot := by
  unfold CardStore.resume
  split <;> rfl

theorem CardStore.setLock_fields (x : CardStore) (i : Fin 8) (l : Lock) :
    (x.setLock i l).banks = setAt x.banks i { x.banks[i] with lock := l } ∧ (x.setLock i l).boot = x.boot
      ∧ (x.setLock i l).card = x.card := by
  rw [CardStore.setLock_eq]
  split
  · exact ⟨by simp [CardStore.putBank], by simp [CardStore.putBank], by simp [CardStore.putBank]⟩
  · exact ⟨rfl, rfl, rfl⟩

theorem CardStore.lockBank_badValue {b m : Byte} (x : CardStore) (h : indexOf 8 b = none ∨ lockOf m = none) :
    x.lockBank b m = (x, refused .badValue) := by
  unfold CardStore.lockBank
  split
  · next hi hl =>
    obtain h | h := h
    · rw [h] at hi
      cases hi
    · rw [h] at hl
      cases hl
  · rfl

theorem CardStore.lockBank_busy {b m : Byte} {i : Fin 8} {l : Lock} {x : CardStore} (hi : indexOf 8 b = some i)
    (hl : lockOf m = some l) (h : x.isStoring i = true) : x.lockBank b m = (x, refused .busy) := by
  simp only [CardStore.lockBank, hi, hl, h, if_true]

theorem CardStore.lockBank_protected {b m : Byte} {i : Fin 8} {l : Lock} {x : CardStore} (hi : indexOf 8 b = some i)
    (hl : lockOf m = some l) (h : x.isStoring i = false) (hrank : lockRank l < lockRank x.banks[i].lock) :
    x.lockBank b m = (x, refused .isProtected) := by
  simp only [CardStore.lockBank, hi, hl, h, Bool.false_eq_true, if_false]
  rw [if_pos hrank]

theorem CardStore.lockBank_locked {b m : Byte} {i : Fin 8} {l : Lock} {x : CardStore} (hi : indexOf 8 b = some i)
    (hl : lockOf m = some l) (h : x.isStoring i = false) (hrank : lockRank x.banks[i].lock ≤ lockRank l) :
    x.lockBank b m = (x.setLock i l, okReply [lockCode l]) := by
  simp only [CardStore.lockBank, hi, hl, h, Bool.false_eq_true, if_false]
  rw [if_neg (Std.not_lt.mpr hrank)]

theorem lockRank_le_fixed (l : Lock) : lockRank l ≤ lockRank .fixed := by cases l <;> decide

theorem CardStore.chooseBoot_badValue {b : Byte} (x : CardStore) (h : bootOf b = none) : x.chooseBoot b = (x, refused .badValue) := by
  rw [CardStore.chooseBoot, h]

theorem CardStore.chooseBoot_set {b : Byte} {i : Option (Fin 8)} (x : CardStore) (h : bootOf b = some i) :
    x.chooseBoot b = ({ x.resume with boot := i }, okReply []) := by
  simp only [CardStore.chooseBoot, h]
  rw [CardStore.suspending_boot]

/-! ### What has landed when supply fails -/

/-- Which write of the request in service lands, by the request (R151). -/
theorem CardStore.land_bankStore {v : Service} {b : Byte} (x : CardStore) (h : v.request = some (.bankStore b)) :
    x.land (some v) = (x.storeBank b).1 := by
  obtain ⟨kind, request⟩ := v
  cases h
  rfl

theorem CardStore.land_bankLock {v : Service} {b : Byte} (x : CardStore) (h : v.request = some (.bankLock b 2)) :
    x.land (some v) = (x.lockBank b 2).1 := by
  obtain ⟨kind, request⟩ := v
  cases h
  rfl

theorem CardStore.land_setBoot {v : Service} {b : Byte} (x : CardStore) (h : v.request = some (.setBoot b)) :
    x.land (some v) = (x.chooseBoot b).1 := by
  obtain ⟨kind, request⟩ := v
  cases h
  rfl

theorem CardStore.land_other {v : Service} (x : CardStore) (hboot : ∀ b, v.request ≠ some (.setBoot b))
    (hlock : ∀ b, v.request ≠ some (.bankLock b 2)) (hstore : ∀ b, v.request ≠ some (.bankStore b)) : x.land (some v) = x := by
  obtain ⟨kind, request⟩ := v
  unfold CardStore.land
  split
  · next b hv =>
    cases hv
    exact absurd rfl (hstore b)
  · next b m hv =>
    cases hv
    rw [if_neg fun hm => hlock b (by rw [(lockOf_fixed_iff m).mp hm])]
  · next b hv =>
    cases hv
    exact absurd rfl (hboot b)
  · rfl

/-- No write of a request changes the working card. -/
theorem CardStore.card_land (x : CardStore) (v : Option Service) : (x.land v).card = x.card := by
  unfold CardStore.land
  split
  · unfold CardStore.storeBank
    repeat' split
    all_goals rfl
  · split
    · unfold CardStore.lockBank
      repeat' split
      all_goals first | rfl | exact (CardStore.setLock_fields x _ _).2.2
    · rfl
  · unfold CardStore.chooseBoot
    split
    · rfl
    · rw [CardStore.suspending_boot]
      exact CardStore.card_resume x
  · rfl

theorem State.failed_unlanded {s : State} {landed : Bool} (h : landed = false ∨ s.link.service = none ∨ s.link.reply ≠ none) :
    (s.failed landed).store = { s.store with engine := .idle } := by
  have hland : (if landed && s.link.reply.isNone then s.store.land s.link.service else s.store) = s.store := by
    obtain rfl | h | h := h
    · rfl
    · rw [h]
      split <;> rfl
    · obtain ⟨r, hr⟩ := Option.ne_none_iff_exists'.mp h
      simp [hr]
  simp only [State.failed, State.store_withPowered, State.store_withLink, State.store_withStore, hland]

theorem State.failed_landed {s : State} (h : s.link.reply = none) :
    (s.failed true).store = { s.store.land s.link.service with engine := .idle } := by
  simp [State.failed, h]

/-- Settles O20, by the write that has landed. -/
theorem supplyFailureLosesStore : Obligations.SupplyFailureLosesStore := by
  unfold Obligations.SupplyFailureLosesStore
  intro s landed hpowered
  refine ⟨s.failed landed, State.event_powered (State.failed landed) hpowered, rfl, rfl, ?_, fun h => ?_, ?_, ?_, ?_, ?_⟩
  · simp only [State.failed, State.store_withPowered, State.store_withLink, State.store_withStore]
    split
    · exact CardStore.card_land _ _
    · rfl
  · rw [State.failed_unlanded h]
    exact ⟨rfl, rfl⟩
  · rintro v b x rfl hreply hservice hrequest hboot
    rw [State.failed_landed hreply, hservice, CardStore.land_setBoot _ hrequest, CardStore.chooseBoot_set _ hboot]
    exact ⟨CardStore.banks_resume _, rfl⟩
  · rintro v b i rfl hreply hservice hrequest hi hstoring
    rw [State.failed_landed hreply, hservice, CardStore.land_bankLock _ hrequest,
      CardStore.lockBank_locked hi (l := .fixed) (by decide) hstoring (lockRank_le_fixed _)]
    obtain ⟨hbanks, hboot, -⟩ := CardStore.setLock_fields s.store i .fixed
    exact ⟨hboot, hbanks⟩
  · rintro v b i rfl hreply hservice hrequest hi hlock hengine
    rw [State.failed_landed hreply, hservice, CardStore.land_bankStore _ hrequest, CardStore.storeBank_started hi hlock hengine]
    exact ⟨rfl, rfl⟩
  · rintro v rfl hreply hservice hcase
    rw [State.failed_landed hreply, hservice]
    have hkept (h : s.store.land (some v) = s.store) : (s.store.land (some v)).banks = s.store.banks
        ∧ (s.store.land (some v)).boot = s.store.boot := by rw [h]; exact ⟨rfl, rfl⟩
    refine hkept ?_
    obtain ⟨hboot, hlock, hstore⟩ | ⟨b, hrequest, hb, hff⟩ | ⟨b, hrequest, hcase⟩ | ⟨b, hrequest, hcase⟩ := hcase
    · exact CardStore.land_other _ hboot hlock hstore
    · rw [CardStore.land_setBoot _ hrequest, CardStore.chooseBoot_badValue _ (bootOf_of_ge hb hff)]
    · rw [CardStore.land_bankLock _ hrequest]
      obtain hb | ⟨i, hi, hstoring⟩ := hcase
      · rw [CardStore.lockBank_badValue _ (.inl (indexOf_of_ge hb))]
      · rw [CardStore.lockBank_busy hi (l := .fixed) (by decide) hstoring]
    · rw [CardStore.land_bankStore _ hrequest]
      obtain hb | ⟨i, hi, hcase⟩ := hcase
      · rw [CardStore.storeBank_badValue _ (indexOf_of_ge hb)]
      · by_cases hlock : s.store.banks[i].lock = .unlocked
        · rw [CardStore.storeBank_busy hi hlock (hcase.resolve_left (Decidable.not_not.mpr hlock))]
        · rw [CardStore.storeBank_protected hi hlock]

end Sys2Proof.Machine
end

section
/-! Lines of the heads, their slots and the head check (R34, R40 to R44, R49 to R53). -/

namespace Sys2Proof.Machine

/-! ### LINE frames -/

theorem le16_eq (n : Nat) : le16 n = [(BitVec.ofNat 16 n).extractLsb' 0 8, (BitVec.ofNat 16 n).extractLsb' 8 8] := rfl

theorem length_flatMap_le16 (ns : List Nat) : (ns.flatMap le16).length = 2 * ns.length := by
  induction ns with
  | nil => rfl
  | cons n ns ih =>
      rw [List.flatMap_cons, List.length_append, ih, List.length_cons, le16, bytes16_length]
      omega

theorem toNat_word16 {n : Nat} (h : n < 65536) : (BitVec.ofNat 16 n).toNat = n := by
  rw [BitVec.toNat_ofNat]
  omega

/-- Numbers of 16 bits are read back from their bytes. -/
theorem numbers16_flatMap {ns : List Nat} (h : ∀ n ∈ ns, n < 65536) : numbers16 (ns.flatMap le16) = ns := by
  induction ns with
  | nil => rfl
  | cons n ns ih =>
      rw [List.flatMap_cons, le16_eq, List.cons_append, List.cons_append, List.nil_append, numbers16, word16_join,
        toNat_word16 (h n (by simp)), ih fun m hm => h m (by simp [hm])]

/-- The bytes of a LINE frame before its check value (R34). -/
def lineBody (l : HeadLine) : List Byte := byte l.head :: le16 l.trigger ++ [byte l.peak] ++ l.codes.flatMap le16

theorem frameOfLine_eq (l : HeadLine) : frameOfLine l = lineBody l ++ bytes16 (crc16 (lineBody l)) := rfl

theorem length_lineBody {l : HeadLine} (h : l.codes.length = 512) : (lineBody l).length = 1028 := by
  rw [lineBody, List.length_append, length_flatMap_le16, h]
  rfl

theorem length_frameOfLine {l : HeadLine} (h : l.codes.length = 512) : (frameOfLine l).length = 1030 := by
  rw [frameOfLine_eq, List.length_append, length_lineBody h, bytes16_length]

theorem lineOfFrame_frameOfLine {l : HeadLine} (hhead : l.head < 256) (htrigger : l.trigger < 65536) (hpeak : l.peak < 256)
    (hlength : l.codes.length = 512) (hcodes : ∀ c ∈ l.codes, c < 65536) : lineOfFrame (frameOfLine l) = some l := by
  have hbody := length_lineBody hlength
  have htake : (frameOfLine l).take 1028 = lineBody l := by rw [frameOfLine_eq, ← hbody, List.take_left]
  have hcheck : word16At (frameOfLine l) 1028 = crc16 (lineBody l) := by
    have hat := word16At_append_right (lineBody l) (bytes16 (crc16 (lineBody l))) 0
    rwa [hbody, word16At_alone] at hat
  have hpayload : ((frameOfLine l).drop 4).take 1024 = l.codes.flatMap le16 := by
    have hcodes : (l.codes.flatMap le16).length = 1024 := by rw [length_flatMap_le16, hlength]
    show (l.codes.flatMap le16 ++ bytes16 (crc16 (lineBody l))).take 1024 = _
    rw [← hcodes, List.take_left]
  have hnumber : word16At (frameOfLine l) 1 = BitVec.ofNat 16 l.trigger := word16_join _
  have hbyte : (byteAt (frameOfLine l) 0) = byte l.head ∧ byteAt (frameOfLine l) 3 = byte l.peak := ⟨rfl, rfl⟩
  rw [lineOfFrame, if_pos ⟨length_frameOfLine hlength, by rw [htake, hcheck]⟩, hpayload, numbers16_flatMap hcodes, hnumber,
    toNat_word16 htrigger, hbyte.1, hbyte.2, toNat_byte hhead, toNat_byte hpeak]

theorem exec_lineFrame {s : State} (h : s.powered = true) (bs : List Byte) : exec (.lineFrame bs) s = .next (s.headFrame bs) :=
  State.event_powered (State.headFrame bs) h

/-- Settles O18, by the bytes of a LINE frame. -/
theorem lineFramesAreChecked : Obligations.LineFramesAreChecked := by
  unfold Obligations.LineFramesAreChecked
  refine ⟨by decide, fun l hhead htrigger hpeak hlength hcodes => ?_, fun s bs hpowered hbad => ?_⟩
  · exact ⟨length_frameOfLine hlength, lineOfFrame_frameOfLine hhead htrigger hpeak hlength hcodes⟩
  · have hnone : lineOfFrame bs = none := by
      rw [lineOfFrame, if_neg]
      exact fun h => hbad.elim (fun hl => hl h.1) fun hc => hc h.2
    rw [exec_lineFrame hpowered, State.headFrame, hnone]
    rfl

/-! ### Lines that reach a head -/

theorem State.headFrame_of_far {s : State} {l : HeadLine} {bs : List Byte} (hl : lineOfFrame bs = some l) (h : 8 ≤ l.head) :
    s.headFrame bs = s.withReport s.report.countLateLine := by
  simp only [State.headFrame, hl, State.takeLine]
  rw [dif_neg (by omega)]

theorem State.headFrame_of_trigger {s : State} {l : Line} {n : Nat} {bs : List Byte}
    (hl : lineOfFrame bs = some { head := l.head.val, trigger := n, peak := l.peak, codes := l.codes }) (hn : n < 65535) :
    s.headFrame bs = s.triggerLine n l := by
  simp only [State.headFrame, hl, State.takeLine, l.head.isLt, dif_pos]
  rw [if_neg (by omega)]

theorem State.headFrame_of_check {s : State} {l : Line} {bs : List Byte}
    (hl : lineOfFrame bs = some { head := l.head.val, trigger := 65535, peak := l.peak, codes := l.codes }) :
    s.headFrame bs = s.checkLine l := by
  simp only [State.headFrame, hl, State.takeLine, l.head.isLt, dif_pos]
  rfl

@[simp] theorem setAt_setAt {n : Nat} {α : Type} (v : Vector α n) (i : Fin n) (x y : α) : setAt (setAt v i x) i y = setAt v i y := by
  refine Vector.ext fun n hn => ?_
  refine (setAt_get (setAt v i x) i ⟨n, hn⟩ y).trans (Eq.trans ?_ (setAt_get v i ⟨n, hn⟩ y).symm)
  split
  · rfl
  · next hother => rw [setAt_get, if_neg hother]

theorem Slot.received_append (k : Slot) (l : Line) (h : Fin 8) :
    ({ k with lines := k.lines ++ [l] } : Slot).received h = true ↔ h = l.head ∨ k.received h = true := by
  simp only [Slot.received, List.any_append, List.any_cons, List.any_nil, Bool.or_false, Bool.or_eq_true, beq_iff_eq]
  rw [or_comm, eq_comm]

theorem Slot.complete_append (k : Slot) (l : Line) : ({ k with lines := k.lines ++ [l] } : Slot).complete = true ↔
    ∀ h, k.expected.contains h = true → h = l.head ∨ k.received h = true := by
  simp only [Slot.complete, List.all_eq_true, Slot.received_append, List.contains_iff_mem]

/-- A line accepted leaves its slot OPEN, or closes it with the last line expected (R40, R41, R49). -/
theorem State.acceptLine_eq (i : Fin 4) (k : Slot) (l : Line) (s : State) {sparse : Nat} {held : Slot} {stored : State}
    (hsparse : sparse = if s.store.card.heads[l.head].minPoints ≤ l.codes.countP validCode then 0
      else min 255 (s.scan.heads[l.head].sparse + 1))
    (hheld : held = { k with lines := k.lines ++ [l] })
    (hstored : stored = { s with
      scan := { s.scan with
        slots := setAt s.scan.slots i (some held),
        heads := setAt s.scan.heads l.head
          { state := if 8 ≤ sparse then .blinded else .ok, miss := 0, sparse := sparse,
            lastLine := some { valid := l.codes.countP validCode, peak := l.peak }, check := s.scan.heads[l.head].check } },
      report := if 8 ≤ sparse ∧ s.scan.heads[l.head].state ≠ .blinded then
        { s.report with flags := s.report.flags ||| 2#11 } else s.report }) :
    s.acceptLine i k l = if held.complete then stored.closeSlot i held else stored := by
  have hafter : s.scan.heads[l.head].accept s.store.card.heads[l.head].minPoints (validCount l.codes) l.peak =
      { state := if 8 ≤ sparse then .blinded else .ok, miss := 0, sparse := sparse,
        lastLine := some { valid := l.codes.countP validCode, peak := l.peak }, check := s.scan.heads[l.head].check } := by
    rw [hsparse]
    rfl
  have hreport : s.report.raiseIf ((s.scan.heads[l.head].accept s.store.card.heads[l.head].minPoints (validCount l.codes) l.peak).state
        == .blinded && s.scan.heads[l.head].state != .blinded) .headFault =
      if 8 ≤ sparse ∧ s.scan.heads[l.head].state ≠ .blinded then { s.report with flags := s.report.flags ||| 2#11 } else s.report := by
    rw [hafter]
    generalize s.scan.heads[l.head].state = before
    by_cases hs : 8 ≤ sparse
    · by_cases hb : before = .blinded
      · simp [hs, hb, ReportUnit.raiseIf]
      · simp only [hs, hb, if_true, ReportUnit.raiseIf, ne_eq, not_false_eq_true, and_self, bne_iff_ne, beq_self_eq_true, Bool.true_and]
        rfl
    · simp only [hs, if_false, false_and]
      rfl
  have hstate : (s.withScan { s.scan.putSlot i (some held) with
      heads := setAt s.scan.heads l.head
        (s.scan.heads[l.head].accept s.store.card.heads[l.head].minPoints (validCount l.codes) l.peak) }).withReport
      (s.report.raiseIf ((s.scan.heads[l.head].accept s.store.card.heads[l.head].minPoints (validCount l.codes) l.peak).state
        == .blinded && s.scan.heads[l.head].state != .blinded) .headFault) = stored := by
    rw [hreport, hafter, hstored]
    rfl
  subst hheld
  rw [← hstate]
  rfl

/-- Settles O30: a trigger line by the cases of R40; an accepted line may close its slot. -/
theorem triggerLineFirstCaseThatApplies : Obligations.TriggerLineFirstCaseThatApplies := by
  unfold Obligations.TriggerLineFirstCaseThatApplies
  refine ⟨fun s l bs hpowered hl hfar _ => ?_, fun s l n bs hpowered hl hn => ?_⟩
  · rw [exec_lineFrame hpowered, State.headFrame_of_far hl hfar]
    rfl
  rw [exec_lineFrame hpowered, State.headFrame_of_trigger hl hn]
  refine ⟨fun hlate => ?_, fun i k henabled hopen hslot hexpected hreceived => ?_,
    fun i k sparse henabled hopen hslot hexpected hreceived hsparse held stored hheld hstored => ?_⟩
  · have hcount : s.triggerLine n l = s.withReport s.report.countLateLine := by
      obtain hoff | hnone | ⟨i, k, hopen, hslot, hother⟩ := hlate
      · simp only [State.triggerLine, hoff, Bool.not_false, if_true]
      · simp only [State.triggerLine, hnone, ite_self]
      · simp only [State.triggerLine, hopen, hslot, hother, Bool.not_false, if_true, ite_self]
    rw [hcount]
    rfl
  · simp only [State.triggerLine, henabled, hopen, hslot, hexpected, hreceived, Bool.not_true, Bool.false_eq_true, if_false, if_true]
    rfl
  · have haccept : s.triggerLine n l = if held.complete then stored.closeSlot i held else stored := by
      rw [← State.acceptLine_eq i k l s hsparse hheld hstored]
      simp only [State.triggerLine, henabled, hopen, hslot, hexpected, hreceived, Bool.not_true, Bool.false_eq_true, if_false]
    have hcomplete : held.complete = true ↔ ∀ h, k.expected.contains h = true → h = l.head ∨ k.received h = true := by
      rw [hheld, Slot.complete_append]
    rw [haccept]
    refine ⟨fun ⟨h, hawaited, hother, hmissing⟩ => ?_, fun hall => ⟨stored.closeSlot i held, ?_, ?_⟩⟩
    · rw [if_neg]
      intro hc
      obtain heq | hgot := hcomplete.mp hc h hawaited
      · exact hother heq
      · rw [hmissing] at hgot
        cases hgot
    · rw [if_pos (hcomplete.mpr hall)]
    · have hover := State.closeSlot_handsOver stored i held
      have hslots : setAt stored.scan.slots i (some { held with phase := .closed }) =
          setAt s.scan.slots i (some { held with phase := .closed }) := by
        rw [hstored]
        exact setAt_setAt _ _ _ _
      rwa [hslots] at hover

/-! ### Head checks -/

theorem ScanAssembler.allAnswered_iff (a : ScanAssembler) : a.allAnswered = true ↔ ∀ h, a.heads[(h : Fin 8)].check ≠ .pending := by
  have hall : ∀ h : Fin 8, h ∈ headsInOrder := by decide
  simp only [ScanAssembler.allAnswered, List.all_eq_true, bne_iff_ne, hall, true_implies]

theorem HeadEntry.unanswered_eq {e : HeadEntry} (h : e.check ≠ .pending) : e.unanswered = e := if_neg h

/-- With every result in, the completion of a check changes no entry. -/
theorem heads_unanswered {v : Vector HeadEntry 8} (h : ∀ i, v[(i : Fin 8)].check ≠ .pending) :
    (Vector.ofFn fun i => v[(i : Fin 8)].unanswered) = v := by
  refine Vector.ext fun n hn => ?_
  rw [Vector.getElem_ofFn]
  exact HeadEntry.unanswered_eq (h ⟨n, hn⟩)

theorem checkOf_ne_pending (h : HeadRecord) (l : Line) : checkOf h l ≠ .pending := by
  unfold checkOf
  repeat' split
  all_goals decide

/-- Settles O31: a check line by the cases of R52, and the completion of the check by R53. -/
theorem checkLineGivesTheHeadsResult : Obligations.CheckLineGivesTheHeadsResult := by
  unfold Obligations.CheckLineGivesTheHeadsResult
  refine ⟨fun s l bs hpowered hl hfar _ => ?_, fun s l bs hpowered hl => ?_⟩
  · rw [exec_lineFrame hpowered, State.headFrame_of_far hl hfar]
    rfl
  rw [exec_lineFrame hpowered, State.headFrame_of_check hl]
  refine ⟨fun hlate => ?_, fun c hcheck hnamed hdone => ?_, fun c r hcheck hnamed hpending hr => ?_⟩
  · have hcount : s.checkLine l = s.withReport s.report.countLateLine := by
      obtain hnone | ⟨c, hcheck, hother⟩ := hlate
      · simp only [State.checkLine, hnone]
      · simp only [State.checkLine, hcheck, hother, Bool.not_false, if_true]
    rw [hcount]
    rfl
  · simp only [State.checkLine, hcheck, hnamed, Bool.not_true, Bool.false_eq_true, if_false]
    rw [if_pos hdone]
    rfl
  · have hresult : checkOf s.store.card.heads[l.head] l = r := hr.symm
    have hget (h : Fin 8) : (setAt s.scan.heads l.head { s.scan.heads[l.head] with check := r })[h].check =
        if h = l.head then r else s.scan.heads[h].check := by
      rw [setAt_get]
      split <;> rfl
    have hjudged : s.checkLine l =
        if (s.withScan { s.scan with heads := setAt s.scan.heads l.head { s.scan.heads[l.head] with check := r } }).scan.allAnswered then
          (s.withScan { s.scan with heads := setAt s.scan.heads l.head { s.scan.heads[l.head] with check := r } }).completeCheck
        else s.withScan { s.scan with heads := setAt s.scan.heads l.head { s.scan.heads[l.head] with check := r } } := by
      simp only [State.checkLine, hcheck, hnamed, Bool.not_true, Bool.false_eq_true, if_false, hresult]
      rw [if_neg (Decidable.not_not.mpr hpending)]
    rw [hjudged]
    refine ⟨fun ⟨h, hother, hawaited⟩ => ?_, fun hall => ?_⟩
    · rw [if_neg]
      · rfl
      · rw [ScanAssembler.allAnswered_iff]
        exact fun hdone => hdone h ((hget h).trans ((if_neg hother).trans hawaited))
    · have hdone : ∀ h, (setAt s.scan.heads l.head { s.scan.heads[l.head] with check := r })[(h : Fin 8)].check ≠ .pending := by
        intro h
        rw [hget]
        split
        · exact hresult ▸ checkOf_ne_pending _ _
        · next hother => exact hall h hother
      rw [if_pos ((ScanAssembler.allAnswered_iff _).mpr hdone)]
      simp only [State.completeCheck, State.scan_withScan, heads_unanswered hdone]
      rfl

/-! ### The line wait -/

/-- Settles O32, by what a closing slot with missing heads becomes. -/
theorem lineWaitExpiryClosesSlot : Obligations.LineWaitExpiryClosesSlot := by
  unfold Obligations.LineWaitExpiryClosesSlot
  intro s i hpowered
  have hexec : exec (.lineWaitExpiry i) s = .next (s.expireSlot i) := State.event_powered (State.expireSlot i) hpowered
  rw [hexec]
  refine ⟨fun hother => ?_, fun k heads hslot hphase hheads => ⟨(s.reach k.deadline).closeMissing i k, ?_, ?_⟩⟩
  · fun_cases State.expireSlot i s
    case case2 k hslot hphase => exact absurd hphase (hother k hslot)
    all_goals rfl
  · simp only [State.expireSlot, hslot, hphase, if_true]
  · exact State.closeMissing_handsOver (s.reach k.deadline) i k heads hheads

end Sys2Proof.Machine
end

section
/-! The forward count, distance and manual triggers (R16, R17, R23 to R27, R33, R35, R37, R41, R45). -/

namespace Sys2Proof.Machine

/-- A request refused by its block changes nothing but the reply (R158, R159). -/
theorem State.refuses_of {s : State} {c : Instr} {k : State → State × ReplyBody} {r : Reason} (hexec : exec c s = s.request c k)
    (hserves : s.serves c) (hk : k s = (s, refused r)) : s.refuses c r := State.exec_of_served hexec hserves hk

theorem setAt_self {n : Nat} {α : Type} (v : Vector α n) (i : Fin n) (x : α) : (setAt v i x)[i] = x := by
  rw [setAt_get, if_pos rfl]

/-! ### The crossing loop -/

/-- Below the pitch no trigger fires (R24). -/
theorem State.crossings_of_lt {s : State} (fuel : Nat) (h : s.runout.remainder < s.runout.pitch) : State.crossings fuel s = s := by
  cases fuel with
  | zero => rfl
  | succ n => rw [State.crossings, if_neg (Std.not_le.mpr h)]

/-- From the pitch on the first crossing is at the pitch in force. -/
theorem State.crossings_of_le {s : State} {fuel : Nat} (hpitch : 0 < s.runout.pitch) (h : s.runout.pitch ≤ s.runout.remainder)
    (hfuel : s.runout.remainder ≤ fuel) : State.crossings fuel s = State.crossings (fuel - 1) s.crossPitch := by
  obtain ⟨n, rfl⟩ := Nat.exists_eq_add_one_of_ne_zero (show fuel ≠ 0 by omega)
  rw [State.crossings, if_pos h, Nat.add_sub_cancel]

/-- A remainder that reaches the pitch once (R24). -/
theorem State.crossings_once {s : State} {fuel : Nat} (hpitch : 0 < s.runout.pitch) (h : s.runout.pitch ≤ s.runout.remainder)
    (hfuel : s.runout.remainder ≤ fuel) (honce : s.runout.remainder - s.runout.pitch < s.runout.nextPitch.getD s.runout.pitch) :
    State.crossings fuel s = s.crossPitch := by
  rw [State.crossings_of_le hpitch h hfuel]
  exact State.crossings_of_lt _ (by rw [State.runout_crossPitch]; exact honce)

/-- A remainder that reaches the pitch: the first trigger at the pitch in force, the others a next pitch apart (R24). -/
theorem State.crossings_all {s : State} {fuel next : Nat} (hpitch : 0 < s.runout.pitch) (hnext : next = s.runout.nextPitch.getD s.runout.pitch)
    (hpos : 0 < next) (h : s.runout.pitch ≤ s.runout.remainder) (hfuel : s.runout.remainder ≤ fuel)
    (htravel : s.runout.remainder ≤ s.runout.travel) :
    State.crossings fuel s = ((List.range ((s.runout.remainder - s.runout.pitch) / next + 1)).foldl
      (fun t n => t.distanceTrigger (s.runout.travel - s.runout.remainder + s.runout.pitch + n * next)) s).withRunout
        { s.runout with remainder := (s.runout.remainder - s.runout.pitch) % next, pitch := next, nextPitch := none } := by
  have hr := State.runout_crossPitch s
  rw [State.crossings_of_le hpitch h hfuel, State.crossings_eq next hpos (fuel - 1) s.crossPitch (by rw [hr, hnext]) (by rw [hr])
    (by rw [hr]; dsimp only; omega) (by rw [hr]; dsimp only; omega), hr]
  dsimp only
  rw [List.range_succ_eq_map, List.foldl_cons, List.foldl_map, State.crossPitch_eq, State.triggers_withRunout, Nat.zero_mul, Nat.add_zero,
    State.withRunout_withRunout, ← hnext]
  have hplaces : (fun (t : State) (n : Nat) => t.distanceTrigger (s.runout.travel - (s.runout.remainder - s.runout.pitch) + next + n * next))
      = fun t n => t.distanceTrigger (s.runout.travel - s.runout.remainder + s.runout.pitch + n.succ * next) := by
    funext t n
    congr 1
    rw [Nat.succ_mul]
    omega
  rw [hplaces]

/-! ### The forward count -/

theorem exec_forwardCount {s : State} (h : s.powered = true) (ch : Puller) : exec (.forwardCount ch) s =
    .next (if s.runout.active = ch then s.advance ch (scaleOf s.store.card.line ch) else s) :=
  State.event_powered (fun s => if s.runout.active = ch then s.advance ch (scaleOf s.store.card.line ch) else s) h

/-- The travel unit with its deficit paid off and its travel grown (R17). -/
def TravelUnit.grow (r : TravelUnit) (ch : Puller) (grown : Nat) : TravelUnit := { r.withDeficit ch 0 with travel := grown }

theorem State.generates_iff (s : State) : s.generates = true ↔ s.tracker.press ≠ .idle ∧ s.runout.mode = .distance := by
  simp [State.generates, State.pressIdle]

/-- A forward count beyond the deficit while the generator does not work (R17, R23). -/
theorem State.advance_still {s : State} {ch : Puller} {scale grown : Nat} (h : s.runout.deficit ch < scale)
    (hgrown : grown = min 1099511627775 (s.runout.travel + (scale - s.runout.deficit ch)))
    (hstill : s.tracker.press = .idle ∨ s.runout.mode = .halt) : s.advance ch scale = s.withRunout (s.runout.grow ch grown) := by
  obtain ⟨htravel, -, -, -, hmode⟩ := s.runout.withDeficit_else ch 0
  have hgenerates : (s.withRunout (s.runout.withDeficit ch 0)).generates = false := by
    rw [Bool.eq_false_iff, ne_eq, State.generates_iff]
    rintro ⟨hpress, hdistance⟩
    obtain hidle | hhalt := hstill
    · exact hpress hidle
    · rw [State.runout_withRunout, hmode, hhalt] at hdistance
      cases hdistance
  rw [State.advance_eq h]
  simp only [State.growTravel, hgenerates, Bool.false_eq_true, if_false, State.runout_withRunout, State.withRunout_withRunout, htravel,
    TravelUnit.grow, hgrown]
  rfl

/-- A forward count beyond the deficit while the generator works: the loop of R24 (R17, R24). -/
theorem State.advance_generating {s : State} {ch : Puller} {scale grown drawn : Nat} (h : s.runout.deficit ch < scale)
    (hgrown : grown = min 1099511627775 (s.runout.travel + (scale - s.runout.deficit ch)))
    (hpress : s.tracker.press ≠ .idle) (hmode : s.runout.mode = .distance) (hdrawn : drawn = s.runout.remainder + (grown - s.runout.travel)) :
    s.advance ch scale = State.crossings drawn (s.withRunout { s.runout.grow ch grown with remainder := drawn }) := by
  obtain ⟨htravel, hremainder, -, -, hmode'⟩ := s.runout.withDeficit_else ch 0
  have hgenerates : (s.withRunout (s.runout.withDeficit ch 0)).generates = true :=
    (State.generates_iff _).mpr ⟨hpress, hmode'.trans hmode⟩
  rw [State.advance_eq h]
  simp only [State.growTravel, hgenerates, if_true, State.runout_withRunout, State.withRunout_withRunout, htravel, hremainder,
    TravelUnit.grow, hdrawn, hgrown]
  rfl

theorem TravelUnit.grow_fields (r : TravelUnit) (ch : Puller) (grown : Nat) :
    (r.grow ch grown).pitch = r.pitch ∧ (r.grow ch grown).nextPitch = r.nextPitch := by
  obtain ⟨-, -, hpitch, hnext, -⟩ := r.withDeficit_else ch 0
  exact ⟨hpitch, hnext⟩

/-- A forward count that reaches the pitch once: its one trigger, whatever deficit it pays (R17, R24). -/
theorem State.advance_once {s : State} {ch : Puller} {scale grown remainder : Nat} (h : s.runout.deficit ch < scale)
    (hpitch : 0 < s.runout.pitch) (hpress : s.tracker.press ≠ .idle) (hmode : s.runout.mode = .distance)
    (hgrown : grown = min 1099511627775 (s.runout.travel + (scale - s.runout.deficit ch)))
    (hremainder : remainder = s.runout.remainder + (grown - s.runout.travel)) (hreached : s.runout.pitch ≤ remainder)
    (honce : remainder - s.runout.pitch < s.runout.nextPitch.getD s.runout.pitch) :
    s.advance ch scale = (s.distanceTrigger (grown - remainder + s.runout.pitch)).withRunout
      { s.runout.withDeficit ch 0 with
        travel := grown, remainder := remainder - s.runout.pitch, pitch := s.runout.nextPitch.getD s.runout.pitch, nextPitch := none } := by
  obtain ⟨hsame, hnext⟩ := s.runout.grow_fields ch grown
  rw [State.advance_generating h hgrown hpress hmode hremainder, State.crossings_once, State.crossPitch_eq,
    State.distanceTrigger_withRunout, State.withRunout_withRunout]
  · simp only [State.runout_withRunout, hsame, hnext]
    rfl
  · simpa only [State.runout_withRunout, hsame] using hpitch
  · simpa only [State.runout_withRunout, hsame] using hreached
  · exact Std.le_refl _
  · simpa only [State.runout_withRunout, hsame, hnext] using honce

/-- Settles O21: the cases of R17, and the loop of R24 by its crossings. -/
theorem forwardCountPaysDeficitThenDraws : Obligations.ForwardCountPaysDeficitThenDraws := by
  unfold Obligations.ForwardCountPaysDeficitThenDraws
  intro s ch hpowered
  rw [exec_forwardCount hpowered]
  refine ⟨fun hother => ?_, fun hactive hpaid => ?_, fun hactive hbeyond grown hgrown => ⟨fun hstill => ?_, ?_⟩⟩
  · rw [if_neg hother]
  · rw [if_pos hactive, State.advance, if_pos hpaid]
    rfl
  · rw [if_pos hactive, State.advance_still hbeyond hgrown hstill]
    rfl
  · intro hpress hmode drawn pitch next hdrawn hpitch hnext
    obtain ⟨hsame, hsameNext⟩ := s.runout.grow_fields ch grown
    rw [if_pos hactive, State.advance_generating hbeyond hgrown hpress hmode hdrawn]
    refine ⟨fun hbelow => ?_, fun hsound hreached => ?_⟩
    · rw [State.crossings_of_lt _ (by simpa only [State.runout_withRunout, hsame, ← hpitch] using hbelow)]
      rfl
    · obtain ⟨hranges, -⟩ := (travelSound_iff s).mp hsound
      have hpos : 0 < pitch := by
        have := hranges.pitch
        omega
      have hnextPos : 0 < next := by
        rw [hnext]
        cases hn : s.runout.nextPitch with
        | none => exact hpos
        | some p =>
            have := hranges.nextPitch p hn
            simp only [Option.getD_some]
            omega
      have htop := hranges.travel
      have hremainder := hranges.remainder
      rw [State.crossings_all (next := next)]
      · simp only [State.runout_withRunout, hsame, hpitch, State.triggers_withRunout, State.withRunout_withRunout]
        refine congrArg _ ?_
        exact (State.triggers_withRunout _ _ _ _).symm
      · rwa [State.runout_withRunout, hsame, ← hpitch]
      · rw [State.runout_withRunout, hsame, hsameNext, ← hpitch, hnext]
      · exact hnextPos
      · rwa [State.runout_withRunout, hsame, ← hpitch]
      · exact Std.le_refl _
      · show drawn ≤ grown
        omega

/-! ### A trigger that takes a slot -/

theorem State.takeSlot_of_enabled {s : State} (i : Fin 4) (manual : Bool) (travel : Nat)
    (h : ∃ j, s.store.card.heads[(j : Fin 8)].enabled = true) : s.takeSlot i manual travel = s.withScan { s.scan with
      nextNumber := nextTriggerNumber s.scan.nextNumber, slots := setAt s.scan.slots i (some (s.newSlot manual travel)),
      skips := if manual then s.scan.skips else none, headTx := s.scan.headTx ++ [triggerFrame s.scan.nextNumber] } := by
  have hsome : (s.newSlot manual travel).expected.isEmpty = false := by
    obtain ⟨j, hj⟩ := h
    have hmem : j ∈ enabledHeads s.store.card := List.mem_filter.mpr ⟨by clear hj; revert j; decide, hj⟩
    rw [Bool.eq_false_iff, ne_eq, List.isEmpty_iff]
    exact List.ne_nil_of_mem hmem
  simp only [State.takeSlot, hsome, Bool.false_eq_true, if_false]
  rfl

/-- With no head enabled the slot closes at once (R37, R41). -/
theorem State.takeSlot_of_disabled {s : State} (i : Fin 4) (manual : Bool) (travel : Nat)
    (h : ∀ j, s.store.card.heads[(j : Fin 8)].enabled = false) : s.takeSlot i manual travel = (s.withScan { s.scan with
      nextNumber := nextTriggerNumber s.scan.nextNumber,
      slots := setAt s.scan.slots i (some { s.newSlot manual travel with phase := .closed }),
      skips := if manual then s.scan.skips else none, headTx := s.scan.headTx ++ [triggerFrame s.scan.nextNumber] }).tryHandOver := by
  have hnone : (s.newSlot manual travel).expected.isEmpty = true := by
    rw [List.isEmpty_iff]
    exact List.filter_eq_nil_iff.mpr fun j _ => by simpa using h j
  simp only [State.takeSlot, hnone, if_true, State.closeSlot, State.scan_withScan, ScanAssembler.putSlot, setAt_setAt]
  rfl

/-- Settles O22, by the slot that the trigger takes and what a hand-over may do. -/
theorem distanceTriggerTakesLowestFreeSlot : Obligations.DistanceTriggerTakesLowestFreeSlot := by
  unfold Obligations.DistanceTriggerTakesLowestFreeSlot
  constructor
  · intro s travel i k taken hfree hlower hk htaken
    have htake : s.distanceTrigger travel = s.takeSlot i false travel := by
      rw [State.distanceTrigger, ScanAssembler.lowestFree_eq hfree hlower]
    have hnew : s.newSlot false travel = k := hk.symm
    rw [htake]
    refine ⟨fun henabled => ?_, fun hdisabled a ha => ?_⟩
    · rw [State.takeSlot_of_enabled i false travel henabled, hnew, htaken, nextTriggerNumber_eq]
      rfl
    · have hclosed : s.takeSlot i false travel = (s.withScan a).tryHandOver := by
        rw [State.takeSlot_of_disabled i false travel hdisabled, hnew, ha, htaken, nextTriggerNumber_eq]
        rfl
      rw [hclosed]
      refine ⟨fun ⟨j, hj⟩ => State.tryHandOver_busy (s := s.withScan a) hj, fun hidle j m holdest hm => ?_⟩
      rw [State.tryHandOver_oldest (s := s.withScan a) hidle holdest hm]
      refine ⟨fun hphase => if_neg hphase, fun hphase todo htodo => ?_⟩
      rw [if_pos hphase, htodo]
      rfl
  · intro s ch i grown remainder hpowered hactive hbeyond hpitch hpress hmode hgrown hremainder hreached honce hfree hlower henabled
    rw [exec_forwardCount hpowered, if_pos hactive,
      State.advance_once hbeyond hpitch hpress hmode hgrown hremainder hreached honce, State.distanceTrigger,
      ScanAssembler.lowestFree_eq hfree hlower]
    simp only
    rw [State.takeSlot_of_enabled i false _ henabled, nextTriggerNumber_eq]
    rfl

/-! ### SET_TRIGGER and TRIGGER_ONCE -/

theorem modeOf_of_ge {code : Byte} (h : 2 ≤ code.toNat) : modeOf code = none := by
  unfold modeOf
  split
  · next h0 =>
    subst h0
    exact absurd h (by decide)
  · split
    · next h1 =>
      subst h1
      exact absurd h (by decide)
    · rfl

/-- Settles O28: a code that names a mode, and one that names none. -/
theorem setTriggerSetsModeAlone : Obligations.SetTriggerSetsModeAlone := by
  unfold Obligations.SetTriggerSetsModeAlone
  intro s code hserves
  refine ⟨fun hother => State.refuses_of rfl hserves ?_, fun m hm => State.exec_of_served rfl hserves ?_⟩
  · rw [State.setTrigger, modeOf_of_ge hother]
  · obtain ⟨rfl, rfl⟩ | ⟨rfl, rfl⟩ := hm
    · rfl
    · rfl

theorem State.triggerOnce_of_running {s : State} (h : s.tracker.press = .running ∨ s.tracker.press = .ending) :
    s.triggerOnce = (s, refused .state) := if_pos h

theorem State.triggerOnce_of_still {s : State} (h : s.tracker.press = .idle ∨ s.tracker.press = .stopped) : s.triggerOnce =
    if s.scan.check.isSome then (s, refused .busy)
    else match s.scan.lowestFree with
      | none => (s, refused .busy)
      | some i => (s.takeSlot i true s.runout.travel, okReply (le16 s.scan.nextNumber)) := by
  have hstill : ¬ (s.tracker.press = .running ∨ s.tracker.press = .ending) := by
    rintro (hp | hp) <;> rw [hp] at h <;> simp at h
  exact if_neg hstill

/-- Settles O29, by the slot that a manual trigger takes. -/
theorem triggerOnceFirstCaseThatApplies : Obligations.TriggerOnceFirstCaseThatApplies := by
  unfold Obligations.TriggerOnceFirstCaseThatApplies
  intro s hserves
  refine ⟨fun hpress => ?_, fun hpress hcheck => ?_, fun hpress hcheck hheld => ?_, fun hpress hcheck i hfree hlower henabled => ?_,
    fun hpress hcheck i hfree hlower hdisabled => ?_⟩
  · exact State.refuses_of rfl hserves (State.triggerOnce_of_running hpress)
  · refine State.refuses_of rfl hserves ?_
    rw [State.triggerOnce_of_still hpress, if_pos hcheck]
  · refine State.refuses_of rfl hserves ?_
    rw [State.triggerOnce_of_still hpress, hcheck, ScanAssembler.lowestFree_of_all_held hheld]
    rfl
  · refine State.exec_of_served rfl hserves ?_
    rw [State.triggerOnce_of_still hpress, hcheck, ScanAssembler.lowestFree_eq hfree hlower]
    simp only [Option.isSome_none, Bool.false_eq_true, if_false]
    rw [State.takeSlot_of_enabled i true _ henabled, nextTriggerNumber_eq]
    rfl
  · have hempty : enabledHeads s.store.card = [] := List.filter_eq_nil_iff.mpr fun j _ => by simpa using hdisabled j
    refine ⟨s.takeSlot i true s.runout.travel, State.exec_of_served rfl hserves ?_, ?_⟩
    · rw [State.triggerOnce_of_still hpress, hcheck, ScanAssembler.lowestFree_eq hfree hlower]
      rfl
    · rw [State.takeSlot_of_disabled i true _ hdisabled, nextTriggerNumber_eq]
      simp only [State.newSlot, hempty]
      exact State.tryHandOver_handsOver _

/-! ### HEAD_CHECK -/

/-- The condition of RUNNING refusals. -/
theorem State.pressIdle_of_running {s : State} (h : s.tracker.press ≠ .idle) : (!s.pressIdle) = true := by
  simpa [State.pressIdle, Bool.eq_false_iff] using h

theorem State.pressIdle_of_idle {s : State} (h : s.tracker.press = .idle) : ¬ (!s.pressIdle) = true := by
  simp [State.pressIdle, h]

theorem ReportUnit.lower_checkDone (r : ReportUnit) : r.lower .checkDone = { r with flags := r.flags &&& 1023#11 } := rfl

/-- Settles O33: the cases of R51, and the 200 ms limit of R53. -/
theorem headCheckBeginsAndRunsOut : Obligations.HeadCheckBeginsAndRunsOut := by
  unfold Obligations.HeadCheckBeginsAndRunsOut
  refine ⟨fun s mask exposure hserves => ?_, fun s hpowered => ?_⟩
  · have hfields (hmask : mask ≠ 0) (hexposure : exposure.toNat ≤ 3) : ¬ (mask = 0 ∨ 3 < exposure.toNat) := by
      rintro (h | h)
      · exact hmask h
      · omega
    refine ⟨fun hbad => ?_, fun hmask hexposure hpress => ?_, fun hmask hexposure hpress hcheck => ?_,
      fun hmask hexposure hpress hcheck => ?_⟩
    · exact State.refuses_of rfl hserves (if_pos hbad)
    · refine State.refuses_of rfl hserves ?_
      rw [State.headCheck, if_neg (hfields hmask hexposure), if_pos (State.pressIdle_of_running hpress)]
    · refine State.refuses_of rfl hserves ?_
      rw [State.headCheck, if_neg (hfields hmask hexposure), if_neg (State.pressIdle_of_idle hpress), if_pos hcheck]
    · refine State.exec_of_served rfl hserves ?_
      rw [State.headCheck, if_neg (hfields hmask hexposure), if_neg (State.pressIdle_of_idle hpress), if_neg]
      · rfl
      · simp [hcheck]
  · have hexec : exec .checkLimitExpiry s = .next s.expireCheck := State.event_powered State.expireCheck hpowered
    rw [hexec]
    refine ⟨fun hnone => ?_, fun c hcheck => ?_⟩
    · rw [State.expireCheck, hnone]
    · rw [State.expireCheck, hcheck]
      rfl

/-! ### Cut edges and lost-cut reports -/

/-- Settles O25: an edge too short, one that finds a place, and one that is lost. -/
theorem cutEdgeLatchesOrIsLost : Obligations.CutEdgeLatchesOrIsLost := by
  unfold Obligations.CutEdgeLatchesOrIsLost
  intro s micros hpowered
  have hexec : exec (.cutEdge micros) s = .next (if micros < 100 then s else s.latchCut) :=
    State.event_powered (fun s => if micros < 100 then s else s.latchCut) hpowered
  rw [hexec]
  refine ⟨fun hshort => ?_, fun hlong hplace => ?_, fun hlong hfull => ?_⟩
  · rw [if_pos hshort]
  · rw [if_neg (Std.not_lt.mpr hlong), State.latchCut, if_pos (show s.runout.cuts.length < cutPlaces from hplace)]
    rfl
  · rw [if_neg (Std.not_lt.mpr hlong), State.latchCut, if_neg (show ¬ s.runout.cuts.length < cutPlaces from Std.not_lt.mpr hfull)]
    rfl

end Sys2Proof.Machine
end

section
/-! A trigger that finds no FREE slot, and the lost-cut reports (R30, R38, R39, R44). -/

namespace Sys2Proof.Machine

/-! ### The trigger that is skipped -/

/-- What a try of the hand-over leaves: every slot but one that was CLOSED, which may be EVALUATING now (R45). -/
theorem State.slots_tryHandOver (s : State) (i : Fin 4) (k : Slot) (h : s.scan.slots[i] = some k) :
    s.tryHandOver.scan.slots[i] = some k ∨ k.phase = .closed ∧ s.tryHandOver.scan.slots[i] = some { k with phase := .evaluating } := by
  obtain hstill | ⟨j, m, hm, hclosed, hover⟩ := s.tryHandOver_cases
  · rw [hstill]
    exact .inl h
  · have hget : s.tryHandOver.scan.slots[i] = if i = j then some { m with phase := .evaluating } else s.scan.slots[i] := by
      rw [hover]
      exact setAt_get _ _ _ _
    rw [hget]
    by_cases hij : i = j
    · subst hij
      rw [hm] at h
      cases h
      exact .inr ⟨hclosed, if_pos rfl⟩
    · exact .inl ((if_neg hij).trans h)

theorem State.tryHandOver_rest (s : State) : s.tryHandOver.scan = { s.scan with slots := s.tryHandOver.scan.slots } := by
  obtain hstill | ⟨j, m, -, -, hover⟩ := s.tryHandOver_cases
  · rw [hstill]
  · rw [hover]
    rfl

/-- A slot closed by force: what stands in the slots after it. -/
theorem State.slots_closeMissing (s : State) (i : Fin 4) (k : Slot) (j : Fin 4) (m : Slot) (h : s.scan.slots[j] = some m) :
    (j = i → m = k → ∃ p, (s.closeMissing i k).scan.slots[j] = some { m with phase := p } ∧ (p = .closed ∨ p = .evaluating))
      ∧ (j ≠ i → (s.closeMissing i k).scan.slots[j] = some m
          ∨ m.phase = .closed ∧ (s.closeMissing i k).scan.slots[j] = some { m with phase := .evaluating }) := by
  have hput (x : Fin 4) : ((s.missHeads k).withScan ((s.missHeads k).scan.putSlot i (some { k with phase := .closed }))).scan.slots[x] =
      if x = i then some { k with phase := .closed } else s.scan.slots[x] := setAt_get _ _ _ _
  constructor
  · rintro rfl rfl
    obtain hkept | ⟨-, hover⟩ := State.slots_tryHandOver _ j _ ((hput j).trans (if_pos rfl))
    · exact ⟨.closed, hkept, .inl rfl⟩
    · exact ⟨.evaluating, hover, .inr rfl⟩
  · intro hji
    exact State.slots_tryHandOver _ j m ((hput j).trans ((if_neg hji).trans h))

/-- The state of a skipped trigger before a slot is force-closed: the skip is recorded, counted and flagged (R38, R39). -/
def State.skipped (travel : Nat) (s : State) : State :=
  (s.withScan { s.scan with skips := addSkip (headCoordinate s.store.card.line travel) s.scan.skips }).withReport s.report.countSkipped

theorem State.distanceTrigger_of_all_held {s : State} (travel : Nat) (h : ∀ i, s.scan.slots[(i : Fin 4)].isSome = true) :
    s.distanceTrigger travel = (s.skipped travel).forceClose := by
  rw [State.distanceTrigger, ScanAssembler.lowestFree_of_all_held h]
  rfl

theorem State.forceClose_of_none {s : State} (h : s.scan.oldest (fun k => k.phase == .waiting) = none) : s.forceClose = s := by
  rw [State.forceClose, h]

theorem State.forceClose_of_some {s : State} {i : Fin 4} {k : Slot} (h : s.scan.oldest (fun k => k.phase == .waiting) = some i)
    (hk : s.scan.slots[i] = some k) : s.forceClose = s.closeMissing i k := by
  simp only [State.forceClose, h, hk]

/-- An OPEN slot is force-closed where there is one, and nothing is done where there is none (R38). -/
theorem State.forceClose_cases (s : State) : s.scan.oldest (fun k => k.phase == .waiting) = none ∧ s.forceClose = s
    ∨ ∃ i k, s.scan.oldest (fun k => k.phase == .waiting) = some i ∧ s.scan.slots[i] = some k ∧ k.phase = .waiting
        ∧ s.forceClose = s.closeMissing i k := by
  cases holdest : s.scan.oldest fun k => k.phase == .waiting with
  | none => exact .inl ⟨rfl, State.forceClose_of_none holdest⟩
  | some i =>
      have hholds := ScanAssembler.oldest_holds holdest
      cases hk : s.scan.slots[i] with
      | none => simp [ScanAssembler.holds, hk] at hholds
      | some k =>
          refine .inr ⟨i, k, rfl, hk, ?_, State.forceClose_of_some holdest hk⟩
          simpa [ScanAssembler.holds, hk] using hholds

theorem State.oldest_skipped (travel : Nat) (s : State) (p : Slot → Bool) : (s.skipped travel).scan.oldest p = s.scan.oldest p :=
  ScanAssembler.oldest_congr _ _ rfl rfl p

/-- A force-close changes the slots and the heads of the scan assembler alone. -/
theorem State.scan_closeMissing (s : State) (i : Fin 4) (k : Slot) : (s.closeMissing i k).scan =
    { s.scan with
      slots := (s.closeMissing i k).scan.slots,
      heads := Vector.ofFn fun h => if k.misses s.store.card h then s.scan.heads[h].missed else s.scan.heads[h] } :=
  State.tryHandOver_rest _

/-- A force-close raises HEAD_FAULT where a missed head enters FAULT, and changes nothing else of the report unit (R44). -/
theorem State.report_closeMissing (s : State) (i : Fin 4) (k : Slot) : (s.closeMissing i k).report =
    { s.report with flags := s.report.flags |||
      (if (∃ h, k.expected.contains h = true ∧ k.received h = false ∧ s.store.card.heads[(h : Fin 8)].enabled = true
          ∧ 7 ≤ s.scan.heads[h].miss ∧ s.scan.heads[h].state ≠ .fault) then 2#11 else 0#11) } := by
  have hraises := missed_raises s.store.card k s.scan.heads
  rw [State.closeMissing, State.report_closeSlot]
  show s.report.raiseIf (headsInOrder.any fun h => k.misses s.store.card h && s.scan.heads[h].enters) .headFault = _
  by_cases hany : (headsInOrder.any fun h => k.misses s.store.card h && s.scan.heads[h].enters) = true
  · rw [if_pos (hraises.mp hany), hany]
    rfl
  · rw [if_neg (mt hraises.mpr hany), Bool.eq_false_iff.mpr hany]
    simp [ReportUnit.raiseIf]

/-- The phases that a skipped trigger leaves: the oldest OPEN slot is closed, and a CLOSED slot may be handed over (R38, R45). -/
theorem State.slots_forceClose (s : State) (i : Fin 4) (k : Slot) (h : s.scan.slots[i] = some k) :
    ∃ p, s.forceClose.scan.slots[i] = some { k with phase := p }
      ∧ (k.phase = .closed → p = .closed ∨ p = .evaluating) ∧ (k.phase = .evaluating → p = .evaluating)
      ∧ (k.phase = .waiting → (p = .waiting ↔ s.scan.oldest (fun k => k.phase == .waiting) ≠ some i)) := by
  obtain ⟨hnone, hstill⟩ | ⟨j, m, hsome, hm, hwaiting, hclose⟩ := s.forceClose_cases
  · refine ⟨k.phase, by rw [hstill, h], fun hp => .inl hp, id, fun hp => iff_of_true hp ?_⟩
    rw [hnone]
    exact fun hc => by cases hc
  · obtain ⟨hsame, hother⟩ := State.slots_closeMissing s j m i k h
    rw [hclose, hsome]
    by_cases hij : i = j
    · subst hij
      rw [hm] at h
      cases h
      obtain ⟨p, hp, hphase⟩ := hsame rfl rfl
      refine ⟨p, hp, fun _ => hphase, fun he => ?_, fun _ => iff_of_false ?_ fun hne => hne rfl⟩
      · rw [hwaiting] at he
        cases he
      · rintro rfl
        obtain hc | hc := hphase <;> cases hc
    · have hne : some j ≠ some i := fun hc => hij (Option.some.inj hc).symm
      obtain hkept | ⟨hclosed, hover⟩ := hother hij
      · exact ⟨k.phase, hkept, fun hp => .inl hp, id, fun hp => iff_of_true hp hne⟩
      · refine ⟨.evaluating, hover, fun _ => .inr rfl, fun _ => rfl, fun hp => ?_⟩
        rw [hclosed] at hp
        cases hp

/-- Settles O23: the skip is recorded, and the oldest OPEN slot closed by force. -/
theorem triggerWithoutFreeSlotIsSkipped : Obligations.TriggerWithoutFreeSlotIsSkipped := by
  unfold Obligations.TriggerWithoutFreeSlotIsSkipped
  constructor
  · intro s t travel x hheld hx ht
    have hskip : (s.skipped travel).scan.skips = some (match s.scan.skips with
        | none => { count := 1, first := x }
        | some k => { count := min 65535 (k.count + 1), first := k.first }) := by
      rw [hx]
      cases hskips : s.scan.skips <;> simp only [State.skipped, State.scan_withReport, State.scan_withScan, hskips] <;> rfl
    rw [State.distanceTrigger_of_all_held travel hheld] at ht
    have holdest := State.oldest_skipped travel s fun k => k.phase == .waiting
    have hslots := State.slots_forceClose (s.skipped travel)
    rw [← ht, holdest] at hslots
    obtain ⟨hnone, hstill⟩ | ⟨j, m, hsome, hm, -, hclose⟩ := (s.skipped travel).forceClose_cases
    · rw [hstill] at ht
      rw [holdest] at hnone
      subst ht
      refine ⟨rfl, rfl, rfl, hskip, rfl, hslots, fun _ => ⟨rfl, rfl, rfl, rfl⟩, fun i k hi => ?_, rfl, rfl, rfl, rfl, rfl, rfl, rfl, rfl, rfl,
        rfl⟩
      rw [hnone] at hi
      cases hi
    · rw [hclose] at ht
      rw [holdest] at hsome
      have hscan := State.scan_closeMissing (s.skipped travel) j m
      have hreport := State.report_closeMissing (s.skipped travel) j m
      have hheads (h : Fin 8) := missed_heads s.store.card m s.scan.heads h
      rw [← ht] at hscan hreport
      have hrest {p : Part} (h0 : ¬ p = .scan) (h1 : ¬ p = .engine) (h2 : ¬ p = .report) : s.agreesOn t p := by
        rw [ht]
        simp [State.skipped, h0, h1, h2]
      have htheads : t.scan.heads = Vector.ofFn fun h => if m.misses s.store.card h then s.scan.heads[h].missed else s.scan.heads[h] := by
        rw [hscan]
        rfl
      refine ⟨by rw [hscan]; rfl, by rw [hscan]; rfl, by rw [hscan]; rfl, by rw [hscan]; exact hskip, by rw [hreport]; rfl, hslots,
        fun hnone => ?_, fun i k hi hk => ?_, hrest (p := .runout) (by decide) (by decide) (by decide),
        hrest (p := .store) (by decide) (by decide) (by decide), hrest (p := .tracker) (by decide) (by decide) (by decide),
        hrest (p := .verdict) (by decide) (by decide) (by decide), hrest (p := .thermal) (by decide) (by decide) (by decide),
        hrest (p := .link) (by decide) (by decide) (by decide), hrest (p := .now) (by decide) (by decide) (by decide),
        hrest (p := .powered) (by decide) (by decide) (by decide), hrest (p := .pending) (by decide) (by decide) (by decide),
        by rw [hreport]; rfl⟩
      · rw [hsome] at hnone
        cases hnone
      · rw [hsome] at hi
        cases hi
        have hkm : k = m := Option.some.inj (hk.symm.trans hm)
        subst hkm
        refine ⟨fun h => by rw [htheads, hheads], by rw [hreport]; rfl, ?_⟩
        have hover := State.closeMissing_handsOver (s.skipped travel) j k t.scan.heads fun h => by rw [htheads]; exact hheads h
        have hskips : t.scan.skips = (s.skipped travel).scan.skips := by rw [hscan]
        rw [ht.symm] at hover
        rw [hskips, hreport]
        exact hover
  · intro s ch grown remainder hpowered hactive hbeyond hpitch hpress hmode hgrown hremainder hreached honce _
    refine ⟨_, by rw [exec_forwardCount hpowered, if_pos hactive,
      State.advance_once hbeyond hpitch hpress hmode hgrown hremainder hreached honce], rfl, rfl⟩

/-! ### The lost-cut reports -/

theorem Strand.active_iff (st : Strand) : st.active = true ↔ st.state = .nose ∨ st.state = .running ∨ st.state = .tailing := by
  simp [Strand.active, or_assoc]

theorem Tracker.strands_markLost (t : Tracker) (i : Fin 4) : t.markLost.strands[i] =
    if t.strands[i].state = .nose ∨ t.strands[i].state = .running ∨ t.strands[i].state = .tailing then
      { t.strands[i] with cutLost := true } else t.strands[i] := by
  have hget : t.markLost.strands[i] = if t.strands[i].active then { t.strands[i] with cutLost := true } else t.strands[i] := by
    simp [Tracker.markLost]
  rw [hget]
  simp only [Strand.active_iff]

/-- Settles O26: the reports due come before the cut, and a report marks the active strands. -/
theorem lostCutReportMarksActiveStrands : Obligations.LostCutReportMarksActiveStrands := by
  unfold Obligations.LostCutReportMarksActiveStrands
  refine ⟨fun s hpowered hcuts hdue => ?_, fun s hpowered => ⟨s.takeLostCut, State.event_powered State.takeLostCut hpowered, ?_⟩⟩
  · have hexec (u : State) (h : u.powered = true) : exec .takeCut u = .next u.takeCut := State.event_powered State.takeCut h
    obtain ⟨travel, rest, hcons⟩ := List.exists_cons_of_ne_nil hcuts
    have hready : s.takeDueReports = s.withTracker { s.tracker.markLost with reportsDue := 0 } := if_pos hdue
    have hmarked : (s.withTracker { s.tracker.markLost with reportsDue := 0 }).takeDueReports =
        s.withTracker { s.tracker.markLost with reportsDue := 0 } := if_neg (Nat.lt_irrefl 0)
    have hsame : s.takeCut = (s.withTracker { s.tracker.markLost with reportsDue := 0 }).takeCut := by
      rw [State.takeCut_of_cons hcons rfl,
        State.takeCut_of_cons (s := s.withTracker { s.tracker.markLost with reportsDue := 0 }) hcons rfl, hready, hmarked]
      rfl
    rw [hexec s hpowered, hsame]
    exact (hexec (s.withTracker { s.tracker.markLost with reportsDue := 0 }) hpowered).symm
  · have hstrands : s.takeLostCut.tracker.strands = s.tracker.markLost.strands ∧ s.takeLostCut.tracker.press = s.tracker.press := by
      simp only [State.takeLostCut, State.tracker_withTracker]
      split <;> exact ⟨rfl, rfl⟩
    refine ⟨fun i => ?_, hstrands.2, rfl, rfl, rfl, rfl, rfl, rfl, rfl, rfl⟩
    rw [hstrands.1, Tracker.strands_markLost]

end Sys2Proof.Machine
end

section
/-! The thermal unit's events, the start of a run and the press events that move the press alone, and the commands that switch the
alarm mask, the watchdog and FAILSAFE (R20, R57 to R61, R94 to R98, R130, R131, R160 to R162, R174 to R176). -/

namespace Sys2Proof.Machine

/-! ### Bands -/

theorem reaches_iff (t : ThermalSection) (x b : Nat) :
    reaches t x b = false ↔ (b = 0 ∧ x < t.u0) ∨ (b = 1 ∧ x < t.u1) ∨ (b = 2 ∧ x < t.u2) ∨ 3 ≤ b := by
  match b with
  | 0 => simp [reaches, bandBound]
  | 1 => simp [reaches, bandBound]
  | 2 => simp [reaches, bandBound]
  | b + 3 => simp [reaches, bandBound]

/-- Plain lookup finds the smallest band that the temperature has not reached (R61). -/
theorem plainBand_smallest (t : ThermalSection) (x : Nat) :
    reaches t x (plainBand t x).val = false ∧ ∀ m, m < (plainBand t x).val → reaches t x m = true := by
  unfold plainBand
  by_cases h0 : x < t.u0
  · rw [if_pos h0]
    exact ⟨by simp [reaches, bandBound, h0], fun m hm => absurd hm (Nat.not_lt_zero m)⟩
  rw [if_neg h0]
  by_cases h1 : x < t.u1
  · rw [if_pos h1]
    refine ⟨by simp [reaches, bandBound, h1], fun m hm => ?_⟩
    obtain rfl : m = 0 := Nat.lt_one_iff.mp hm
    simpa [reaches, bandBound] using h0
  rw [if_neg h1]
  by_cases h2 : x < t.u2
  · rw [if_pos h2]
    refine ⟨by simp [reaches, bandBound, h2], fun m hm => ?_⟩
    obtain rfl | rfl : m = 0 ∨ m = 1 := by change m < 2 at hm; omega
    · simpa [reaches, bandBound] using h0
    · simpa [reaches, bandBound] using h1
  · rw [if_neg h2]
    refine ⟨rfl, fun m hm => ?_⟩
    obtain rfl | rfl | rfl : m = 0 ∨ m = 1 ∨ m = 2 := by change m < 3 at hm; omega
    · simpa [reaches, bandBound] using h0
    · simpa [reaches, bandBound] using h1
    · simpa [reaches, bandBound] using h2

/-- Settles O42: plain lookup, and the three cases of a revision. -/
theorem bandRevisionFirstCaseThatApplies : Obligations.BandRevisionFirstCaseThatApplies := by
  unfold Obligations.BandRevisionFirstCaseThatApplies
  intro t b x below smallest hbelow hsmallest
  have hreach (y m : Nat) (hm : m ≤ 3) : below y m ↔ reaches t y m = false := by
    rw [hbelow, reaches_iff, show m = 3 ↔ 3 ≤ m by omega]
  have hreached (y m : Nat) (hm : m ≤ 3) : ¬ below y m ↔ reaches t y m = true := by
    rw [hreach y m hm, Bool.not_eq_false]
  have hplain (y : Nat) : smallest y (plainBand t y) := by
    obtain ⟨hb, hm⟩ := plainBand_smallest t y
    have hle : (plainBand t y).val ≤ 3 := Nat.le_of_lt_succ (plainBand t y).isLt
    exact (hsmallest y _).mpr ⟨(hreach y _ hle).mpr hb, fun m h => (hreached y m (by omega)).mpr (hm m h)⟩
  have hb3 : b.val ≤ 3 := Nat.le_of_lt_succ b.isLt
  have hpred : b.val - 1 ≤ 3 := by omega
  refine ⟨hplain x, fun hup => ?_, fun hin hpos hdown => ?_, fun hin hkeep => ?_⟩
  · rw [reviseBand, if_pos ((hreached x _ hb3).mp hup)]
    exact hplain x
  · rw [reviseBand, if_neg (by simpa using (hreach x _ hb3).mp hin), if_pos]
    · exact hplain _
    · simp [hpos, (hreach _ _ hpred).mp hdown]
  · rw [reviseBand, if_neg (by simpa using (hreach x _ hb3).mp hin), if_neg]
    obtain hzero | hstay := hkeep
    · simp [hzero]
    · simp [(hreached _ _ hpred).mp hstay]

/-! ### Samples and hold timers -/

theorem validSample_iff (code : BitVec 12) : validSample code = true ↔ 1 ≤ code.toNat ∧ code.toNat ≤ 4094 := by
  have h0 : code = 0 ↔ code.toNat = 0 := by rw [← BitVec.toNat_inj]; rfl
  have h1 : code = 4095 ↔ code.toNat = 4095 := by rw [← BitVec.toNat_inj]; rfl
  have hlt := code.isLt
  simp only [validSample, Bool.and_eq_true, bne_iff_ne, ne_eq, h0, h1]
  omega

theorem ReportUnit.raiseIf_thermalFallback (p : Prop) [Decidable p] (r : ReportUnit) :
    r.raiseIf (decide p) .thermalFallback = if p then { r with flags := r.flags ||| 4#11 } else r := by
  simp only [ReportUnit.raiseIf, decide_eq_true_eq]
  rfl

/-- Settles O41: a valid sample, an invalid one, and the hold timer. -/
theorem samplesHoldAndFallback : Obligations.SamplesHoldAndFallback := by
  unfold Obligations.SamplesHoldAndFallback
  refine ⟨fun s i code hpowered => ?_, fun s i hpowered => ?_⟩
  · have hexec : exec (.pyroSample i code) s = .next (s.takeSample i code) := State.event_powered (State.takeSample i code) hpowered
    rw [hexec]
    have hinvalid (h : code.toNat = 0 ∨ code.toNat = 4095) : ¬ validSample code = true := by
      rw [validSample_iff]
      omega
    refine ⟨fun hlow hhigh => ?_, fun hbad hkeep => ?_, fun hbad hhold hfallback => ?_⟩
    · rw [State.takeSample, if_pos ((validSample_iff code).mpr ⟨hlow, hhigh⟩)]
      rfl
    · rw [State.takeSample, if_neg (hinvalid hbad), if_neg]
      rintro ⟨hhold, hfallback⟩
      obtain h | h := hkeep
      · omega
      · rw [hfallback] at h
        cases h
    · rw [State.takeSample, if_neg (hinvalid hbad), if_pos ⟨hhold, hfallback⟩, State.fallBack, ReportUnit.raiseIf_thermalFallback]
      rfl
  · have hexec : exec (.holdTimerExpiry i) s = .next (s.expireHold i) := State.event_powered (State.expireHold i) hpowered
    rw [hexec]
    refine ⟨fun hstill => ?_, fun d hd hfallback => ?_⟩
    · obtain h | h := hstill
      · simp only [State.expireHold, h]
      · simp only [State.expireHold, h, if_true]
        split <;> rfl
    · simp only [State.expireHold, hd, hfallback, Bool.false_eq_true, if_false, State.fallBack]
      rw [ReportUnit.raiseIf_thermalFallback]
      rfl

/-! ### The start of a run -/

/-- An accepted RUN_START, block by block (R20, R23, R32, R39, R75, R80, R88, R92, R95). -/
theorem State.beginRun_eq (s : State) : s.beginRun = { s with
    runout := { s.runout with
      deficitA := 0, deficitB := 0, travel := 0, pitch := s.store.card.line.scanPitch, nextPitch := none, remainder := 0,
      cuts := [] },
    scan := { s.scan with skips := none },
    engine := {
      stale := Vector.ofFn fun i => s.engine.stale[i] || (match s.scan.slots[i] with
        | some k => !k.manual
        | none => false),
      persistence := Vector.replicate 4 (Vector.replicate 32 Persistence.clear), last := Vector.replicate 4 none,
      evaluation := s.engine.evaluation.map fun v => { v with track := false }, sent := [] },
    tracker := {
      press := .running,
      strands := Vector.ofFn fun i => Strand.fresh (if i.val < s.store.card.strands then .nose else .absent) 1,
      reports := 0, reportsDue := 0 },
    report := { s.report with latches := Vector.replicate 4 none } } := rfl

/-- Settles O52, by the four cases of R95. -/
theorem runStartFirstCaseThatApplies : Obligations.RunStartFirstCaseThatApplies := by
  unfold Obligations.RunStartFirstCaseThatApplies
  intro s hserves
  have hnone (h : s.scan.check = none) : ¬ s.scan.check.isSome = true := by simp [h]
  refine ⟨fun hpress => ?_, fun hpress hcheck => ?_, fun hpress hcheck hready => ?_, fun hpress hcheck hready => ?_⟩
  · exact State.refuses_of rfl hserves (if_pos (State.pressIdle_of_running hpress))
  · refine State.refuses_of rfl hserves ?_
    rw [State.runStart, if_neg (State.pressIdle_of_idle hpress), if_pos hcheck]
  · refine State.exec_of_served rfl hserves ?_
    rw [State.runStart, if_neg (State.pressIdle_of_idle hpress), if_neg (hnone hcheck), if_pos hready]
    rfl
  · refine State.exec_of_served rfl hserves ?_
    rw [State.runStart, if_neg (State.pressIdle_of_idle hpress), if_neg (hnone hcheck), if_neg (Decidable.not_not.mpr hready), State.beginRun_eq]
    rfl

/-! ### STOP, RESUME and RUN_END of the press -/

theorem State.pressing_iff {s : State} : s.pressing = true ↔ s.tracker.press = .running ∨ s.tracker.press = .stopped := by
  simp [State.pressing]

theorem State.not_pressing {s : State} (h : s.tracker.press = .idle ∨ s.tracker.press = .ending) : ¬ s.pressing = true := by
  rw [State.pressing_iff]
  obtain h | h := h <;> simp [h]

theorem Strand.extruding_iff (st : Strand) : st.extruding = true ↔ st.state = .nose ∨ st.state = .running := by
  simp [Strand.extruding]

/-- RUN_END refuses in IDLE and ENDING, as BILLET_JOIN, STOP and RESUME do (R96 to R98). -/
theorem State.refuses_press {s : State} {c : Instr} (hserves : s.serves c)
    (hc : c = .billetJoin ∨ c = .stop ∨ c = .resume ∨ c = .runEnd) (h : s.tracker.press = .idle ∨ s.tracker.press = .ending) :
    s.refuses c .state := by
  obtain rfl | rfl | rfl | rfl := hc
  · exact State.refuses_of rfl hserves (if_neg (State.not_pressing h))
  · refine State.refuses_of rfl hserves ?_
    obtain h | h := h <;> rw [State.stop, h]
  · exact State.refuses_of rfl hserves (if_neg (State.not_pressing h))
  · exact State.refuses_of rfl hserves (if_neg (State.not_pressing h))

/-- Settles O54: the refusals, STOP in STOPPED, RESUME and RUN_END. -/
theorem stopResumeAndRunEndMoveThePress : Obligations.StopResumeAndRunEndMoveThePress := by
  unfold Obligations.StopResumeAndRunEndMoveThePress
  refine ⟨fun s c hserves hc hpress => State.refuses_press hserves hc hpress, fun s p hp => ?_⟩
  subst hp
  refine ⟨fun hserves hpress => ?_, fun hserves hpress => ?_, fun hserves hpress => ?_⟩
  · refine State.exec_of_served rfl hserves ?_
    rw [State.stop, hpress]
    simp only [pressReply, hpress]
    rfl
  · exact State.exec_of_served rfl hserves (if_pos (State.pressing_iff.mpr hpress))
  · refine State.exec_of_served rfl hserves ?_
    rw [State.runEnd, if_pos (State.pressing_iff.mpr hpress)]
    simp only [State.withTracker, Tracker.runEnd, Strand.runEnd, Strand.extruding_iff]
    rfl

/-! ### Counters, the alarm mask and the output lines -/

theorem ReportUnit.unmasked_iff (flags mask : BitVec 11) :
    (flags &&& ~~~mask) ≠ 0 ↔ ∃ b, b < 11 ∧ flags.getLsbD b = true ∧ mask.getLsbD b = false := by
  refine ⟨fun h => Decidable.byContradiction fun hnone => h (BitVec.eq_of_getLsbD_eq fun b hb => ?_), ?_⟩
  · refine (Bool.eq_false_iff.mpr fun hset => hnone ⟨b, hb, ?_⟩).trans BitVec.getLsbD_zero.symm
    simpa [hb] using hset
  · rintro ⟨b, hb, hflag, hmask⟩ h
    have := congrArg (BitVec.getLsbD · b) h
    simp only [BitVec.getLsbD_and, BitVec.getLsbD_not, hflag, hmask, hb, decide_true, Bool.not_false, Bool.and_true] at this
    simp at this

/-- Settles O59: CLEAR_COUNTERS, SET_ALARM_MASK, and when the output lines are asserted. -/
theorem countersAlarmMaskAndOutputLines : Obligations.CountersAlarmMaskAndOutputLines := by
  unfold Obligations.CountersAlarmMaskAndOutputLines
  refine ⟨fun s hserves => State.exec_of_served rfl hserves rfl, fun s mask hserves => ?_, fun s hpowered => ⟨?_, fun i => ?_⟩⟩
  · exact ⟨mask.setWidth 11, fun b hb => by simp [hb], State.exec_of_served rfl hserves rfl⟩
  · rw [State.alarmLine, hpowered, Bool.true_and, Bool.or_eq_true, bne_iff_ne, beq_iff_eq, ReportUnit.unmasked_iff, or_comm]
  · rw [State.rejectLine, hpowered, Bool.true_and, Bool.or_eq_true, bne_iff_ne, beq_iff_eq]

/-! ### The watchdog, FAILSAFE and RESTART -/

/-- The interval that SET_WATCHDOG stores, by the value it carries (R160). -/
theorem intervalOf_eq {w : Word16} {n : Nat} (h : w.toNat = 0 ∧ n = 0 ∨ 1 ≤ w.toNat ∧ w.toNat ≤ 49 ∧ n = 50
    ∨ 50 ≤ w.toNat ∧ w.toNat ≤ 60000 ∧ n = w.toNat ∨ 60000 < w.toNat ∧ n = 60000) : intervalOf w = n := by
  have h0 : w = 0 ↔ w.toNat = 0 := by rw [← BitVec.toNat_inj]; rfl
  simp only [intervalOf, clamp, h0]
  split <;> omega

/-- Settles O60: SET_WATCHDOG, the watchdog's deadline, the FAILSAFE requests and RESTART. -/
theorem watchdogFailsafeAndRestart : Obligations.WatchdogFailsafeAndRestart := by
  unfold Obligations.WatchdogFailsafeAndRestart
  refine ⟨fun s w n hserves hn => ?_, fun s => ⟨fun hpowered hnone => ?_, fun d hpowered hd => ?_,
    fun hserves => State.exec_of_served (k := fun s => (s.withFailsafe .failsafe, okReply [failsafeCode .failsafe])) rfl hserves rfl,
    fun hserves => State.exec_of_served (k := fun s => (s.withFailsafe .normal, okReply [failsafeCode .normal])) rfl hserves rfl,
    fun hserves => State.exec_of_served (k := answering fun _ => okReply []) rfl hserves rfl⟩⟩
  · refine State.exec_of_served rfl hserves ?_
    simp only [State.setWatchdog, intervalOf_eq hn, watchdogDeadline, State.withLink]
    congr 1
    split <;> rfl
  · have hexec : exec .watchdogExpiry s = .next s.expireWatchdog := State.event_powered State.expireWatchdog hpowered
    rw [hexec, State.expireWatchdog, hnone]
  · have hexec : exec .watchdogExpiry s = .next s.expireWatchdog := State.event_powered State.expireWatchdog hpowered
    rw [hexec, State.expireWatchdog, hd]
    rfl

end Sys2Proof.Machine
end

section
/-! The bank commands by the first case that applies, what a load gives each block, and the readiness of a card (R142, R145 to R150). -/

namespace Sys2Proof.Machine

/-! ### BANK_STORE and its end -/

theorem State.storing_protected {s : State} {x : CardStore} :
    s.storing (x, refused .isProtected) = ({ s with store := x, report := { s.report with flags := s.report.flags ||| 128#11 } },
      refused .isProtected) := rfl

theorem State.storing_refused {s : State} {r : Reason} (h : r ≠ .isProtected) :
    s.storing (s.store, refused r) = (s, refused r) := by
  simp [State.storing, refused, h, ReportUnit.raiseIf, State.withStore, State.withReport]

theorem State.storing_ok {s : State} {x : CardStore} (fields : List Byte) :
    s.storing (x, okReply fields) = (s.withStore x, okReply fields) := rfl

theorem exec_bankStore (bank : Byte) (s : State) :
    exec (.bankStore bank) s = s.request (.bankStore bank) fun s => s.storing (s.store.storeBank bank) := rfl

theorem exec_bankLock (bank mode : Byte) (s : State) :
    exec (.bankLock bank mode) s = s.request (.bankLock bank mode) fun s => s.storing (s.store.lockBank bank mode) := rfl

theorem storeSucceeds_iff (j : StoreJob) (found : StoreRead) :
    storeSucceeds j found = true ↔ (∀ bs, found ≠ .incomplete bs) ∧ (readContent j.copy found).crc = j.digest := by
  cases found <;> simp [storeSucceeds, readComplete]

/-- Settles O49: the cases of BANK_STORE, and the two outcomes of a store. -/
theorem bankStoreRunsToItsOutcome : Obligations.BankStoreRunsToItsOutcome := by
  unfold Obligations.BankStoreRunsToItsOutcome
  refine ⟨fun s bank hserves => ⟨fun hbank => ?_, fun i hbank => ?_⟩, fun s found hpowered => ?_⟩
  · refine State.refuses_of (exec_bankStore bank s) hserves ?_
    rw [CardStore.storeBank_badValue _ (indexOf_of_ge hbank), State.storing_refused (by decide)]
  · have hi : indexOf 8 bank = some i := indexOf_eq_some_iff.mpr hbank
    refine ⟨fun hlock => ?_, fun hlock hbusy => ?_, fun hlock hidle => ?_⟩
    · have hne : s.store.banks[i].lock ≠ .unlocked := by
        obtain h | h := hlock <;> rw [h] <;> decide
      refine State.exec_of_served (exec_bankStore bank s) hserves ?_
      rw [CardStore.storeBank_protected hi hne, State.storing_protected]
      rfl
    · refine State.refuses_of (exec_bankStore bank s) hserves ?_
      rw [CardStore.storeBank_busy hi hlock hbusy, State.storing_refused (by decide)]
    · refine State.exec_of_served (exec_bankStore bank s) hserves ?_
      rw [CardStore.storeBank_started hi hlock hidle, State.storing_ok]
      rfl
  · have hexec : exec (.bankStoreEnd found) s = .next (s.endStore found) := State.event_powered (State.endStore found) hpowered
    rw [hexec]
    refine ⟨fun hnone => ?_, fun j content hj hcontent => ?_⟩
    · unfold State.endStore
      split
      · next j hj => exact absurd hj (hnone j)
      · rfl
    · have hread : readContent j.copy found = content := by rw [hcontent]; cases found <;> rfl
      refine ⟨fun hcomplete hcrc => ?_, fun hfails => ?_⟩
      · have hdone : storeSucceeds j found = true := (storeSucceeds_iff j found).mpr ⟨hcomplete, by rw [hread, hcrc]⟩
        simp only [State.endStore, hj, CardStore.endStore, hdone, hread]
        rfl
      · have hnot : storeSucceeds j found = false := by
          rw [← Bool.not_eq_true, storeSucceeds_iff, hread]
          rintro ⟨hcomplete, hcrc⟩
          obtain ⟨bs, h⟩ | h := hfails
          · exact hcomplete bs h
          · exact h hcrc
        simp only [State.endStore, hj, CardStore.endStore, hnot, hread]
        rfl

/-! ### BANK_LOCK and SET_BOOT -/

/-- Outside a suspension a store into the bank is in flight exactly where the engine is storing it (R148). -/
theorem CardStore.isStoring_iff {x : CardStore} {i : Fin 8} (h : ∀ j, x.engine ≠ .suspended j) :
    x.isStoring i = true ↔ ∃ j, x.engine = .storing j ∧ j.bank = i := by
  unfold CardStore.isStoring
  split
  · next he => simp [he]
  · next j he => simp [he]
  · next j he => exact absurd he (h j)

theorem CardStore.isStoring_false {x : CardStore} {i : Fin 8} (h : ∀ j, x.engine ≠ .suspended j)
    (hother : ∀ j, x.engine = .storing j → j.bank ≠ i) : x.isStoring i = false := by
  rw [← Bool.not_eq_true, CardStore.isStoring_iff h]
  rintro ⟨j, hj, hbank⟩
  exact hother j hj hbank

/-- Outside a suspension a lock set is the bank's lock written (R148, R149). -/
theorem CardStore.setLock_unsuspended {x : CardStore} (i : Fin 8) (l : Lock) (h : ∀ j, x.engine ≠ .suspended j) :
    x.setLock i l = x.putBank i { x.banks[i] with lock := l } := by
  rw [CardStore.setLock_eq, CardStore.resume_eq x h, ite_self]

theorem lockOf_eq {mode : Byte} {l : Lock} (h : mode = 0 ∧ l = .unlocked ∨ mode = 1 ∧ l = .held ∨ mode = 2 ∧ l = .fixed) :
    lockOf mode = some l ∧ lockCode l = mode := by
  obtain ⟨rfl, rfl⟩ | ⟨rfl, rfl⟩ | ⟨rfl, rfl⟩ := h <;> exact ⟨rfl, rfl⟩

theorem lockOf_of_ge {mode : Byte} (h : 3 ≤ mode.toNat) : lockOf mode = none := by
  have hne (n : Byte) (hn : n.toNat < 3) : mode ≠ n := by
    rintro rfl
    omega
  rw [lockOf, if_neg (hne 0 (by decide)), if_neg (hne 1 (by decide)), if_neg (hne 2 (by decide))]

/-- The locks that BANK_LOCK may not give: below the present one (R149). -/
theorem lockRank_lt_iff (now l : Lock) : lockRank l < lockRank now ↔ now = .held ∧ l = .unlocked ∨ now = .fixed ∧ l ≠ .fixed := by
  cases now <;> cases l <;> decide

theorem lockRank_le_of {now l : Lock} (h : now = .unlocked ∨ (now = .held ∧ l ≠ .unlocked) ∨ l = .fixed) :
    lockRank now ≤ lockRank l := by
  rw [← Std.not_lt, lockRank_lt_iff]
  rintro (⟨rfl, rfl⟩ | ⟨rfl, hl⟩) <;> simp_all

/-- Settles O50: the cases of BANK_LOCK and of SET_BOOT. -/
theorem bankLockAndSetBootFirstCaseThatApplies : Obligations.BankLockAndSetBootFirstCaseThatApplies := by
  unfold Obligations.BankLockAndSetBootFirstCaseThatApplies
  refine ⟨fun s bank mode hserves => ⟨fun hbad => ?_, fun i l hbank hmode hsuspended => ?_⟩,
    fun s bank hserves hsuspended => ⟨fun hbank hff => ?_, fun b hb => ?_⟩⟩
  · refine State.refuses_of (exec_bankLock bank mode s) hserves ?_
    rw [CardStore.lockBank_badValue _ (hbad.imp indexOf_of_ge lockOf_of_ge), State.storing_refused (by decide)]
  · have hi : indexOf 8 bank = some i := indexOf_eq_some_iff.mpr hbank
    obtain ⟨hl, hcode⟩ := lockOf_eq hmode
    refine ⟨fun hstoring => ?_, fun hother => ⟨fun hdown => ?_, fun hup => ?_⟩⟩
    · refine State.refuses_of (exec_bankLock bank mode s) hserves ?_
      rw [CardStore.lockBank_busy hi hl ((CardStore.isStoring_iff hsuspended).mpr hstoring), State.storing_refused (by decide)]
    · refine State.exec_of_served (exec_bankLock bank mode s) hserves ?_
      rw [CardStore.lockBank_protected hi hl (CardStore.isStoring_false hsuspended hother) ((lockRank_lt_iff _ _).mpr hdown),
        State.storing_protected]
      rfl
    · refine State.exec_of_served (exec_bankLock bank mode s) hserves ?_
      rw [CardStore.lockBank_locked hi hl (CardStore.isStoring_false hsuspended hother) (lockRank_le_of hup), State.storing_ok,
        CardStore.setLock_unsuspended i l hsuspended, hcode]
      rfl
  · refine State.refuses_of rfl hserves ?_
    rw [State.setBoot, CardStore.chooseBoot_badValue _ (bootOf_of_ge hbank hff)]
    rfl
  · have hboot : bootOf bank = some b := by
      obtain ⟨rfl, rfl⟩ | ⟨i, rfl, hi⟩ := hb
      · rfl
      · rw [bootOf, if_neg, indexOf_eq_some_iff.mpr hi]
        rintro rfl
        have := i.isLt
        change 255 = i.val at hi
        omega
    refine State.exec_of_served rfl hserves ?_
    rw [State.setBoot, CardStore.chooseBoot_set _ hboot, CardStore.resume_eq _ hsuspended]
    rfl

/-! ### BANK_LOAD -/

/-- Outside a suspension a load gives the card store the bank's card and digest, and no pending limits (R145, R148). -/
theorem CardStore.load_eq {x : CardStore} (b : Bank) (h : ∀ j, x.engine ≠ .suspended j) :
    x.load b = { x with card := b.content.asCard, digest := b.digest, pendingLimits := Vector.replicate 32 none } := by
  rw [CardStore.load, CardStore.suspending_card, CardStore.resume_eq x h]
  rfl

/-- The head table after a load (R48). -/
def headsAfterLoad (old new : Card) (heads : Vector HeadEntry 8) : Vector HeadEntry 8 :=
  Vector.ofFn fun i => heads[i].follow old.heads[i].enabled new.heads[i].enabled

theorem headsAfterLoad_get (old new : Card) (heads : Vector HeadEntry 8) (h : Fin 8) :
    (headsAfterLoad old new heads)[h] = heads[h].follow old.heads[h].enabled new.heads[h].enabled := by
  simp [headsAfterLoad]

/-- The thermal records after a section has been taken (R63). -/
def recordsAfter (t : ThermalSection) (now : Nat) (records : Vector ThermalRecord 4) : Vector ThermalRecord 4 :=
  Vector.ofFn fun i => records[i].takeSection t now

theorem recordsAfter_get (t : ThermalSection) (now : Nat) (records : Vector ThermalRecord 4) (k : Fin 4) :
    (recordsAfter t now records)[k] = records[k].takeSection t now := by
  simp [recordsAfter]

theorem Strand.follow_eq (count : Nat) (i : Fin 4) (st : Strand) : st.follow count i =
    if st.state = .idle ∨ st.state = .absent then { st with state := if i.val < count then .idle else .absent } else st := by
  unfold Strand.follow
  cases st.state <;> rfl

/-- The strands after a change of the strand count (R92). -/
theorem Tracker.follow_eq (old new : Nat) (t : Tracker) : t.follow old new =
    if old = new then t else { t with
      strands := Vector.ofFn fun i =>
        if t.strands[i].state = .idle ∨ t.strands[i].state = .absent then
          { t.strands[i] with state := if i.val < new then .idle else .absent }
        else t.strands[i] } := by
  simp only [Tracker.follow, Strand.follow_eq]

/-- A load carried out, block by block. -/
theorem State.loadBank_eq {s : State} (b : Bank) (h : ∀ j, s.store.engine ≠ .suspended j) : s.loadBank b = { s with
    store := { s.store with card := b.content.asCard, digest := b.digest, pendingLimits := Vector.replicate 32 none },
    scan := { s.scan with heads := headsAfterLoad s.store.card b.content.asCard s.scan.heads },
    runout := s.runout.takePitch true s.store.card.line.scanPitch b.content.asCard.line.scanPitch,
    thermal := recordsAfter b.content.asCard.thermal s.now s.thermal,
    engine := s.engine.forget,
    tracker := s.tracker.follow s.store.card.strands b.content.asCard.strands,
    report := s.report.emptyLatches } := by
  simp only [State.loadBank, CardStore.load_eq b h]
  rfl

/-- What a thermal record takes from a section, by the state of its timer (R63). -/
theorem ThermalRecord.takeSection_fields (t : ThermalSection) (now : Nat) (r : ThermalRecord) :
    (r.takeSection t now).temperature = (if r.fallback then t.defaultTemp else r.temperature)
    ∧ (r.takeSection t now).band = plainBand t (r.takeSection t now).temperature
    ∧ (r.takeSection t now).fallback = r.fallback
    ∧ (t.hold = 0 → (r.takeSection t now).timer = none)
    ∧ (0 < t.hold → ∀ d, r.timer = some d → (r.takeSection t now).timer = some d)
    ∧ (0 < t.hold → r.timer = none → r.fallback = false → (r.takeSection t now).timer = some (now + t.hold))
    ∧ (0 < t.hold → r.timer = none → r.fallback = true → (r.takeSection t now).timer = none) := by
  refine ⟨rfl, rfl, rfl, fun h => if_pos h, fun h d hd => ?_, fun h hn hf => ?_, fun h hn hf => ?_⟩
  · simp only [ThermalRecord.takeSection, if_neg (Nat.ne_of_gt h), hd]
  · simp only [ThermalRecord.takeSection, if_neg (Nat.ne_of_gt h), hn, hf, Bool.false_eq_true, if_false]
  · simp only [ThermalRecord.takeSection, if_neg (Nat.ne_of_gt h), hn, hf, if_true]

theorem HeadEntry.follow_fields (was enabled : Bool) (e : HeadEntry) :
    (was = enabled → e.follow was enabled = e)
    ∧ (was ≠ enabled → e.follow was enabled =
        { state := if enabled then .ok else .offline, miss := 0, sparse := 0, lastLine := none, check := e.check }) :=
  ⟨fun h => if_pos h, fun h => if_neg h⟩

theorem Bank.intact_eq_true {b : Bank} (h : b.content.crc = b.digest) : b.intact = true := beq_iff_eq.mpr h

theorem Bank.intact_eq_false {b : Bank} (h : b.content.crc ≠ b.digest) : b.intact = false := beq_eq_false_iff_ne.mpr h

/-- BANK_LOAD past its first two cases (R145). -/
theorem State.bankLoad_of_idle {s : State} {bank : Byte} {i : Fin 8} (hi : indexOf 8 bank = some i) (hpress : s.tracker.press = .idle) :
    s.bankLoad bank =
      if s.store.isStoring i then (s, refused .busy)
      else if !s.store.banks[i].valid then (s, refused .bankEmpty)
      else if !s.store.banks[i].intact then
        ((s.withStore (s.store.suspending id)).withReport (s.report.raise .bankError), refused .bankCrc)
      else (s.loadBank s.store.banks[i], okReply (loadFields (s.loadBank s.store.banks[i]).store)) := by
  simp only [State.bankLoad, hi]
  rw [if_neg (State.pressIdle_of_idle hpress)]

/-- Settles O48, by the cases of R145. -/
theorem bankLoadFirstCaseThatApplies : Obligations.BankLoadFirstCaseThatApplies := by
  unfold Obligations.BankLoadFirstCaseThatApplies
  intro s bank hserves
  refine ⟨fun hbank => ?_, fun hbank hpress => ?_, fun i hbank hpress hsuspended => ?_⟩
  · refine State.refuses_of rfl hserves ?_
    rw [State.bankLoad, indexOf_of_ge hbank]
  · refine State.refuses_of rfl hserves ?_
    simp only [State.bankLoad, indexOf_of_lt (show bank.toNat < 8 by omega)]
    rw [if_pos (State.pressIdle_of_running hpress)]
  · have hload := State.bankLoad_of_idle (indexOf_eq_some_iff.mpr hbank) hpress
    refine ⟨fun hstoring => ?_, fun hother => ?_⟩
    · refine State.refuses_of rfl hserves ?_
      rw [hload, if_pos ((CardStore.isStoring_iff hsuspended).mpr hstoring)]
    · rw [CardStore.isStoring_false hsuspended hother, if_neg Bool.false_ne_true] at hload
      refine ⟨fun hvalid => ?_, fun hvalid hcrc => ?_, fun hvalid hcrc => ?_⟩
      · refine State.refuses_of rfl hserves ?_
        rw [hload, if_pos (by rw [hvalid]; rfl)]
      · refine State.exec_of_served rfl hserves ?_
        rw [hload, if_neg (by rw [hvalid]; decide), if_pos (by rw [Bank.intact_eq_false hcrc]; rfl), CardStore.suspending_id,
          CardStore.resume_eq _ hsuspended]
        rfl
      · refine ⟨s.store.banks[i].content.asCard, headsAfterLoad s.store.card s.store.banks[i].content.asCard s.scan.heads,
          recordsAfter s.store.banks[i].content.asCard.thermal s.now s.thermal, fun held hheld => ?_, fun held hok hheld => ?_, ?_,
          fun h => ?_, fun k => ?_⟩
        · rw [hheld]
          rfl
        · rw [hheld]
          exact BankContent.asCard_canonical hok
        · refine State.exec_of_served rfl hserves ?_
          rw [hload, if_neg (by rw [hvalid]; decide), if_neg (by rw [Bank.intact_eq_true hcrc]; decide), State.loadBank_eq _ hsuspended,
            Tracker.follow_eq]
          rfl
        · rw [headsAfterLoad_get]
          exact HeadEntry.follow_fields _ _ _
        · rw [recordsAfter_get]
          exact ThermalRecord.takeSection_fields _ _ _

/-! ### Readiness -/

theorem mem_headsInOrder : ∀ h : Fin 8, h ∈ headsInOrder := by decide

theorem mem_featuresInOrder : ∀ f : Fin 32, f ∈ featuresInOrder := by decide

theorem mem_strandsInOrder : ∀ i : Fin 4, i ∈ strandsInOrder := by decide

theorem servingHead_isSome_iff (c : Card) (i position : Fin 4) :
    (servingHead c i position).isSome = true ↔
      ∃ h, c.heads[(h : Fin 8)].enabled = true ∧ c.heads[h].strand = i ∧ c.heads[h].position = position := by
  rw [servingHead, List.find?_isSome]
  simp only [mem_headsInOrder, true_and, servesAt, Bool.and_eq_true, beq_iff_eq, and_assoc]

/-- A check of every strand of the card (R142). -/
def everyStrand (c : Card) (p : Fin 4 → Bool) : Bool := (strandsInOrder.filter fun i => decide (i.val < c.strands)).all p

theorem everyStrand_iff (c : Card) (p : Fin 4 → Bool) : everyStrand c p = true ↔ ∀ i : Fin 4, i.val < c.strands → p i = true := by
  simp only [everyStrand, List.all_eq_true, List.mem_filter, mem_strandsInOrder, true_and, decide_eq_true_eq]

/-- A head is enabled on the strand (R142 check 2). -/
def headed (c : Card) (i : Fin 4) : Bool := headsInOrder.any fun h => c.heads[h].enabled && c.heads[h].strand == i

theorem headed_iff (c : Card) (i : Fin 4) : headed c i = true ↔ ∃ h, c.heads[(h : Fin 8)].enabled = true ∧ c.heads[h].strand = i := by
  simp only [headed, List.any_eq_true, mem_headsInOrder, true_and, Bool.and_eq_true, beq_iff_eq]

/-- The places of a feature are served on the strand (R142 check 4). -/
def placesServed (c : Card) (i : Fin 4) (f : Fin 32) : Bool :=
  match c.features[f] with
  | none => true
  | some x => (servingHead c i x.placeA.position).isSome
                && (match x.placeB with
                    | some b => (servingHead c i b.position).isSome
                    | none => true)

theorem placesServed_iff (c : Card) (i : Fin 4) (f : Fin 32) : placesServed c i f = true ↔
    ∀ (x : Feature) (p : Place), c.features[f] = some x → (p = x.placeA ∨ x.placeB = some p) →
      (servingHead c i p.position).isSome = true := by
  unfold placesServed
  split
  · next hx => simp [hx]
  · next x hx =>
    have hplaces : (∀ (y : Feature) (p : Place), c.features[f] = some y → (p = y.placeA ∨ y.placeB = some p) →
        (servingHead c i p.position).isSome = true) ↔
          ∀ p : Place, (p = x.placeA ∨ x.placeB = some p) → (servingHead c i p.position).isSome = true := by
      refine ⟨fun h p hp => h x p hx hp, fun h y p hy hp => ?_⟩
      obtain rfl : x = y := Option.some.inj (hx.symm.trans hy)
      exact h p hp
    rw [hplaces]
    split
    · next b hb => simp [hb, or_imp, forall_and]
    · next hb => simp [hb]

/-- The six checks of R142 in order. -/
theorem readiness_eq (c : Card) : readiness c =
    if c.strands = 0 then 1
    else if !everyStrand c (headed c) then 2
    else if !featuresInOrder.any (fun f => c.features[f].isSome) then 3
    else if !everyStrand c (fun i => featuresInOrder.all (placesServed c i)) then 4
    else if c.line.dSaw < c.line.dHead + 2000 then 5
    else if !c.thermal.increasing then 6
    else 0 := rfl

/-- A value is 0 where the checks 1 to 6 pass, and else the number of the first that fails. -/
def FirstFailing (passes : Nat → Prop) (v : Nat) : Prop :=
  (v = 0 ∧ ∀ n, 1 ≤ n → n ≤ 6 → passes n) ∨ (1 ≤ v ∧ v ≤ 6 ∧ ¬ passes v ∧ ∀ m, 1 ≤ m → m < v → passes m)

theorem FirstFailing.zero_iff {passes : Nat → Prop} {v : Nat} (h : FirstFailing passes v) :
    v = 0 ↔ ∀ n, 1 ≤ n → n ≤ 6 → passes n := by
  obtain ⟨hv, hall⟩ | ⟨hlow, hhigh, hfails, -⟩ := h
  · exact iff_of_true hv hall
  · exact iff_of_false (by omega) fun hall => hfails (hall v hlow hhigh)

theorem FirstFailing.eq_iff {passes : Nat → Prop} {v n : Nat} (h : FirstFailing passes v) (hn : 1 ≤ n) (hn6 : n ≤ 6) :
    v = n ↔ ¬ passes n ∧ ∀ m, 1 ≤ m → m < n → passes m := by
  obtain ⟨hv, hall⟩ | ⟨hlow, hhigh, hfails, hbefore⟩ := h
  · exact iff_of_false (by omega) fun hcase => hcase.1 (hall n hn hn6)
  · refine ⟨fun hv => hv ▸ ⟨hfails, hbefore⟩, fun ⟨hnot, hpass⟩ => ?_⟩
    obtain hlt | heq | hgt := Nat.lt_trichotomy v n
    · exact absurd (hpass v hlow hlt) hfails
    · exact heq
    · exact absurd (hbefore n hn hgt) hnot

/-- Check `n` looked at where the checks before it pass. -/
theorem FirstFailing.step {passes : Nat → Prop} {check : Prop} [Decidable check] {n v : Nat} (hn : 1 ≤ n) (hn6 : n ≤ 6)
    (hcheck : check ↔ ¬ passes n) (hbelow : ∀ m, 1 ≤ m → m < n → passes m)
    (hrest : (∀ m, 1 ≤ m → m < n + 1 → passes m) → FirstFailing passes v) : FirstFailing passes (if check then n else v) := by
  by_cases h : check
  · rw [if_pos h]
    exact .inr ⟨hn, hn6, hcheck.mp h, hbelow⟩
  · rw [if_neg h]
    refine hrest fun m hm hlt => ?_
    obtain hlt' | rfl := Nat.lt_succ_iff_lt_or_eq.mp hlt
    · exact hbelow m hm hlt'
    · exact Classical.not_not.mp fun hnot => h (hcheck.mpr hnot)

/-- Settles O51: each check of R142 in turn. -/
theorem readinessIsTheFirstCheckThatFails : Obligations.ReadinessIsTheFirstCheckThatFails := by
  unfold Obligations.ReadinessIsTheFirstCheckThatFails
  intro c passes h1 h2 h3 h4 h5 h6
  have e1 : c.strands = 0 ↔ ¬ passes 1 := by rw [h1]; omega
  have e2 : (!everyStrand c (headed c)) = true ↔ ¬ passes 2 := by
    rw [Bool.not_eq_true', ← Bool.not_eq_true, everyStrand_iff, h2]
    simp only [headed_iff]
  have e3 : (!featuresInOrder.any fun f => c.features[f].isSome) = true ↔ ¬ passes 3 := by
    rw [Bool.not_eq_true', ← Bool.not_eq_true, h3]
    simp only [List.any_eq_true, mem_featuresInOrder, true_and]
  have e4 : (!everyStrand c fun i => featuresInOrder.all (placesServed c i)) = true ↔ ¬ passes 4 := by
    rw [Bool.not_eq_true', ← Bool.not_eq_true, everyStrand_iff, h4]
    simp only [List.all_eq_true, mem_featuresInOrder, true_imp_iff, placesServed_iff, servingHead_isSome_iff]
    exact not_congr ⟨fun h f x p hx hp i hi => h i hi f x p hx hp, fun h i hi f x p hx hp => h f x p hx hp i hi⟩
  have e5 : c.line.dSaw < c.line.dHead + 2000 ↔ ¬ passes 5 := by rw [h5]; omega
  have e6 : (!c.thermal.increasing) = true ↔ ¬ passes 6 := by simp only [h6, ThermalSection.increasing, Bool.not_eq_true', decide_eq_false_iff_not]
  have hfirst : FirstFailing passes (readiness c) := by
    rw [readiness_eq]
    exact .step (by decide) (by decide) e1 (fun m hm hlt => absurd hm (by omega)) fun b1 =>
      .step (by decide) (by decide) e2 b1 fun b2 => .step (by decide) (by decide) e3 b2 fun b3 =>
      .step (by decide) (by decide) e4 b3 fun b4 => .step (by decide) (by decide) e5 b4 fun b5 =>
      .step (by decide) (by decide) e6 b5 fun b6 => .inl ⟨rfl, fun n hn hn6 => b6 n hn (by omega)⟩
  exact ⟨hfirst.zero_iff, fun n hn hn6 => hfirst.eq_iff hn hn6⟩

end Sys2Proof.Machine
end

section
/-! What the editing requests carry: when the fields are a record of the card, which record, and when a field is brought into range
(R3, R13, R62, R70, R73, R137). -/

namespace Sys2Proof.Machine

/-! ### One-byte values -/

theorem yesNoOf_eq_some_iff {b : Byte} {v : Bool} : yesNoOf b = some v ↔ b.toNat ≤ 1 ∧ v = decide (b = 1) := by
  by_cases h : b.toNat ≤ 1
  · rw [yesNoOf_of_le_one h, Option.some.injEq, eq_comm]
    exact ⟨fun hv => ⟨h, hv⟩, fun hv => hv.2⟩
  · rw [yesNoOf_of_two_le (by omega)]
    exact iff_of_false (fun hv => by cases hv) fun hv => h hv.1

/-- The severity that a byte of a card names: MINOR 0, MAJOR 1 (R166). -/
theorem gradeOf_eq_some_iff {b : Byte} {g : Grade} : gradeOf b = some g ↔ b.toNat ≤ 1 ∧ g = if b = 0 then .minor else .major := by
  by_cases h0 : b = 0
  · subst h0
    simp [gradeOf, eq_comm]
  by_cases h1 : b = 1
  · subst h1
    simp [gradeOf, eq_comm]
  · rw [gradeOf, if_neg h0, if_neg h1]
    refine iff_of_false (fun hv => by cases hv) fun ⟨hle, _⟩ => ?_
    obtain h | h : b = 0 ∨ b = 1 := by bv_omega
    · exact h0 h
    · exact h1 h

theorem kindByte_isSome_iff (b : Byte) : (kindByte b).isSome = true ↔ b.toNat ≤ 3 := by
  by_cases hle : b.toNat ≤ 3
  · obtain rfl | rfl | rfl | rfl : b = 0 ∨ b = 1 ∨ b = 2 ∨ b = 3 := by bv_omega
    · decide
    · decide
    · decide
    · decide
  · have hne (n : Byte) (hn : n.toNat ≤ 3) : b ≠ n := fun h => hle (h ▸ hn)
    rw [kindByte, if_neg (hne 0 (by decide)), if_neg (hne 1 (by decide)), if_neg (hne 2 (by decide)), if_neg (hne 3 (by decide))]
    exact iff_of_false Bool.false_ne_true hle

theorem kindByte_gap_iff (b : Byte) : kindByte b = some .gap ↔ b = 2 := by
  by_cases h2 : b = 2
  · subst h2
    decide
  · refine iff_of_false (fun h => ?_) h2
    unfold kindByte at h
    rw [if_neg h2] at h
    revert h
    repeat' split
    all_goals exact fun h => by cases h

/-- An index read from a byte, where it is one. -/
theorem indexOf_isSome_iff (n : Nat) (b : Byte) : (indexOf n b).isSome = true ↔ b.toNat < n := by
  by_cases h : b.toNat < n
  · simp [indexOf_of_lt h, h]
  · simp [indexOf_of_ge (Std.not_lt.mp h), h]

/-! ### The head record -/

/-- The bytes of a head record that name a value or none. -/
def headNamed (r : RawHead) : Prop :=
  r.enabled.toNat ≤ 1 ∧ r.strand.toNat < 4 ∧ r.position.toNat < 4 ∧ r.mirrorColumn.toNat ≤ 1 ∧ r.mirrorRange.toNat ≤ 1 ∧ r.swap.toNat ≤ 1

/-- The record that the fields make where every byte names a value. -/
def headCarried (r : RawHead) (strand position : Fin 4) : HeadRecord :=
  { enabled := decide (r.enabled = 1), strand := strand, position := position, mirrorColumn := decide (r.mirrorColumn = 1),
    mirrorRange := decide (r.mirrorRange = 1), swap := decide (r.swap = 1), c0 := r.c0.toNat, pitch := r.pitch.toNat,
    offU := r.offU.toInt, offV := r.offV.toInt, minPoints := r.minPoints.toNat, dark := r.dark.toNat, bright := r.bright.toNat }

theorem headRecordOf_eq_some_iff {r : RawHead} {h : HeadRecord} : headRecordOf r = some h ↔
    headNamed r ∧ ∃ strand position : Fin 4, strand.val = r.strand.toNat ∧ position.val = r.position.toNat
      ∧ (headCarried r strand position).inRange = true ∧ h = headCarried r strand position := by
  constructor
  · intro hr
    unfold headRecordOf at hr
    split at hr
    · next he hs hp hc hm hw =>
      obtain ⟨he', rfl⟩ := yesNoOf_eq_some_iff.mp he
      obtain ⟨hc', rfl⟩ := yesNoOf_eq_some_iff.mp hc
      obtain ⟨hm', rfl⟩ := yesNoOf_eq_some_iff.mp hm
      obtain ⟨hw', rfl⟩ := yesNoOf_eq_some_iff.mp hw
      have hstrand := indexOf_eq_some_iff.mp hs
      have hposition := indexOf_eq_some_iff.mp hp
      obtain ⟨rfl, hrange⟩ := checked_eq_some hr
      exact ⟨⟨he', hstrand ▸ Fin.isLt _, hposition ▸ Fin.isLt _, hc', hm', hw'⟩, _, _, hstrand.symm, hposition.symm, hrange, rfl⟩
    · cases hr
  · rintro ⟨⟨he, -, -, hc, hm, hw⟩, strand, position, hstrand, hposition, hrange, rfl⟩
    simp only [headRecordOf, yesNoOf_of_le_one he, yesNoOf_of_le_one hc, yesNoOf_of_le_one hm, yesNoOf_of_le_one hw,
      indexOf_eq_some_iff.mpr hstrand.symm, indexOf_eq_some_iff.mpr hposition.symm]
    exact if_pos hrange

/-- The ranges of R1 as the fields carry them. -/
theorem headCarried_inRange_iff (r : RawHead) (strand position : Fin 4) : (headCarried r strand position).inRange = true ↔
    r.c0.toNat ≤ 511 ∧ 1 ≤ r.pitch.toNat ∧ r.pitch.toNat ≤ 2000 ∧ -2000000 ≤ r.offU.toInt ∧ r.offU.toInt ≤ 2000000
      ∧ -2000000 ≤ r.offV.toInt ∧ r.offV.toInt ≤ 2000000 ∧ 1 ≤ r.minPoints.toNat ∧ r.minPoints.toNat ≤ 512
      ∧ r.dark.toNat < r.bright.toNat := by
  have hbright : r.bright.toNat ≤ 255 := Nat.le_of_lt_succ r.bright.isLt
  simp only [HeadRecord.inRange, Bool.and_eq_true, decide_eq_true_eq, and_assoc]
  simp only [headCarried, hbright, and_true]

theorem headRecordOf_isSome_iff (r : RawHead) : (headRecordOf r).isSome = true ↔
    r.enabled.toNat ≤ 1 ∧ r.strand.toNat ≤ 3 ∧ r.position.toNat ≤ 3 ∧ r.mirrorColumn.toNat ≤ 1 ∧ r.mirrorRange.toNat ≤ 1
      ∧ r.swap.toNat ≤ 1 ∧ r.c0.toNat ≤ 511 ∧ 1 ≤ r.pitch.toNat ∧ r.pitch.toNat ≤ 2000 ∧ -2000000 ≤ r.offU.toInt
      ∧ r.offU.toInt ≤ 2000000 ∧ -2000000 ≤ r.offV.toInt ∧ r.offV.toInt ≤ 2000000 ∧ 1 ≤ r.minPoints.toNat
      ∧ r.minPoints.toNat ≤ 512 ∧ r.dark.toNat < r.bright.toNat := by
  simp only [Option.isSome_iff_exists, headRecordOf_eq_some_iff]
  constructor
  · rintro ⟨h, ⟨he, hs, hp, hc, hm, hw⟩, strand, position, -, -, hrange, -⟩
    exact ⟨he, Nat.le_of_lt_succ hs, Nat.le_of_lt_succ hp, hc, hm, hw, (headCarried_inRange_iff r _ _).mp hrange⟩
  · rintro ⟨he, hs, hp, hc, hm, hw, hrange⟩
    have hs' := Nat.lt_succ_of_le hs
    have hp' := Nat.lt_succ_of_le hp
    exact ⟨_, ⟨he, hs', hp', hc, hm, hw⟩, ⟨_, hs'⟩, ⟨_, hp'⟩, rfl, rfl, (headCarried_inRange_iff r _ _).mpr hrange, rfl⟩

/-! ### Limits -/

/-- The limits that the fields make under a severity. -/
def limitsCarried (r : RawLimits) (severity : Grade) : Limits :=
  { nominal := r.nominal.toInt, lower := r.lower.toInt, upper := r.upper.toInt, kOpen := clamp 1 15 r.kOpen.toNat,
    kClose := clamp 1 15 r.kClose.toNat, severity := severity }

theorem limitsOf_eq_some_iff {r : RawLimits} {l : Limits} {clamped : Bool} : limitsOf r = some (l, clamped) ↔
    r.severity.toNat ≤ 1 ∧ l = limitsCarried r (if r.severity = 0 then .minor else .major) ∧ l.tolerancesInRange = true
      ∧ clamped = (decide (l.kOpen ≠ r.kOpen.toNat) || decide (l.kClose ≠ r.kClose.toNat)) := by
  unfold limitsOf
  split
  · next hg =>
    refine iff_of_false (fun h => by cases h) fun ⟨hs, _⟩ => ?_
    rw [gradeOf_eq_some_iff.mpr ⟨hs, rfl⟩] at hg
    cases hg
  · next severity hg =>
    obtain ⟨hs, rfl⟩ := gradeOf_eq_some_iff.mp hg
    simp only [Option.ite_none_right_eq_some, Option.some.injEq, Prod.mk.injEq]
    constructor
    · rintro ⟨hrange, rfl, rfl⟩
      exact ⟨hs, rfl, hrange, rfl⟩
    · rintro ⟨-, rfl, hrange, rfl⟩
      exact ⟨hrange, rfl, rfl⟩

/-- A number is moved by a clamp exactly where it lies outside the range. -/
theorem clamp_ne_iff {low high : Nat} (n : Nat) (h : low ≤ high) : clamp low high n ≠ n ↔ n < low ∨ high < n := by
  unfold clamp
  omega

theorem byte_eq_zero_iff (b : Byte) : b = 0 ↔ b.toNat < 1 := by
  rw [Nat.lt_one_iff, ← BitVec.toNat_inj]
  rfl

theorem limitsCarried_tolerances_iff (r : RawLimits) (g : Grade) : (limitsCarried r g).tolerancesInRange = true ↔
    -10000000 ≤ r.nominal.toInt ∧ r.nominal.toInt ≤ 10000000 ∧ -1000000 ≤ r.lower.toInt ∧ r.lower.toInt ≤ r.upper.toInt
      ∧ r.upper.toInt ≤ 1000000 := by
  simp only [Limits.tolerancesInRange, Bool.and_eq_true, decide_eq_true_eq]
  simp only [limitsCarried]
  omega

theorem limitsOf_isSome_iff (r : RawLimits) : (limitsOf r).isSome = true ↔
    r.severity.toNat ≤ 1 ∧ -10000000 ≤ r.nominal.toInt ∧ r.nominal.toInt ≤ 10000000 ∧ -1000000 ≤ r.lower.toInt
      ∧ r.lower.toInt ≤ r.upper.toInt ∧ r.upper.toInt ≤ 1000000 := by
  simp only [Option.isSome_iff_exists, Prod.exists, limitsOf_eq_some_iff]
  constructor
  · rintro ⟨l, clamped, hs, rfl, hrange, -⟩
    exact ⟨hs, (limitsCarried_tolerances_iff r _).mp hrange⟩
  · rintro ⟨hs, hrange⟩
    exact ⟨_, _, hs, rfl, (limitsCarried_tolerances_iff r _).mpr hrange, rfl⟩

theorem limitsOf_clamped_iff {r : RawLimits} {l : Limits} {clamped : Bool} (h : limitsOf r = some (l, clamped)) :
    clamped = true ↔ r.kOpen = 0 ∨ 15 < r.kOpen.toNat ∨ r.kClose = 0 ∨ 15 < r.kClose.toNat := by
  obtain ⟨-, rfl, -, rfl⟩ := limitsOf_eq_some_iff.mp h
  simp only [limitsCarried, Bool.or_eq_true, decide_eq_true_eq, clamp_ne_iff _ (show 1 ≤ 15 by decide), byte_eq_zero_iff, or_assoc]

/-! ### The feature record -/

theorem windowOf_eq_some_iff {first last : Word16} {w : Window} {clamped : Bool} : windowOf first last = some (w, clamped) ↔
    first.toNat ≤ min last.toNat 511 ∧ w = { first := first.toNat, last := min last.toNat 511 } ∧ clamped = decide (511 < last.toNat) := by
  simp only [windowOf, Option.ite_none_right_eq_some, Option.some.injEq, Prod.mk.injEq]
  rw [eq_comm (b := w), eq_comm (b := clamped)]

theorem placeBOf_of_ne_gap {kind : FeatureKind} (posA : Fin 4) (r : RawFeature) (h : kind ≠ .gap) :
    placeBOf kind posA r = some (none, false) := by
  cases kind with
  | gap => exact absurd rfl h
  | span => rfl
  | level => rfl
  | flat => rfl

theorem placeBOf_gap_eq_some_iff {posA : Fin 4} {r : RawFeature} {o : Option Place} {clamped : Bool} :
    placeBOf .gap posA r = some (o, clamped) ↔ r.firstB.toNat ≤ min r.lastB.toNat 511 ∧ clamped = decide (511 < r.lastB.toNat)
      ∧ ∃ p : Fin 4, p.val = r.posB.toNat ∧ p ≠ posA
        ∧ o = some { position := p, window := { first := r.firstB.toNat, last := min r.lastB.toNat 511 } } := by
  constructor
  · intro h
    simp only [placeBOf] at h
    split at h
    · next hp hw =>
      obtain ⟨hle, rfl, rfl⟩ := windowOf_eq_some_iff.mp hw
      simp only [Option.ite_none_left_eq_some, Option.some.injEq, Prod.mk.injEq] at h
      obtain ⟨hne, rfl, rfl⟩ := h
      exact ⟨hle, rfl, _, (indexOf_eq_some_iff.mp hp).symm, hne, rfl⟩
    · cases h
  · rintro ⟨hle, rfl, p, hp, hne, rfl⟩
    simp only [placeBOf, indexOf_eq_some_iff.mpr hp.symm, windowOf_eq_some_iff.mpr ⟨hle, rfl, rfl⟩, if_neg hne]

/-- The feature record that the fields make. -/
def featureCarried (r : RawFeature) (kind : FeatureKind) (posA : Fin 4) (placeB : Option Place) (limits : Limits) : Feature :=
  { featureId := r.featureId.toNat, kind := kind,
    placeA := { position := posA, window := { first := r.firstA.toNat, last := min r.lastA.toNat 511 } }, placeB := placeB,
    minPoints := r.minPoints.toNat, trended := decide (r.trended = 1), limits := limits }

/-- A feature record that a request carries: each field names a value, and each is in range or brought into it (R70). -/
theorem featureOf_eq_some_iff {r : RawFeature} {f : Feature} {clamped : Bool} : featureOf r = some (f, clamped) ↔
    ∃ kind posA placeB limits cb cl, kindByte r.kind = some kind ∧ posA.val = r.posA.toNat ∧ r.firstA.toNat ≤ min r.lastA.toNat 511
      ∧ r.trended.toNat ≤ 1 ∧ limitsOf r.limits = some (limits, cl) ∧ placeBOf kind posA r = some (placeB, cb)
      ∧ 1 ≤ r.minPoints.toNat ∧ r.minPoints.toNat ≤ 512 ∧ f = featureCarried r kind posA placeB limits
      ∧ clamped = (decide (511 < r.lastA.toNat) || cb || cl) := by
  constructor
  · intro h
    unfold featureOf at h
    split at h
    · next hk hp hw ht hl =>
      obtain ⟨hle, rfl, rfl⟩ := windowOf_eq_some_iff.mp hw
      obtain ⟨ht', rfl⟩ := yesNoOf_eq_some_iff.mp ht
      split at h
      · next hb =>
        simp only [Option.ite_none_right_eq_some, Option.some.injEq, Prod.mk.injEq] at h
        obtain ⟨⟨hlow, hhigh⟩, rfl, rfl⟩ := h
        exact ⟨_, _, _, _, _, _, hk, (indexOf_eq_some_iff.mp hp).symm, hle, ht', hl, hb, hlow, hhigh, rfl, rfl⟩
      · cases h
    · cases h
  · rintro ⟨kind, posA, placeB, limits, cb, cl, hk, hp, hle, ht, hl, hb, hlow, hhigh, rfl, rfl⟩
    simp only [featureOf, hk, indexOf_eq_some_iff.mpr hp.symm, windowOf_eq_some_iff.mpr ⟨hle, rfl, rfl⟩, yesNoOf_of_le_one ht, hl, hb,
      hlow, hhigh, and_self, if_true]
    rfl

theorem placeBOf_gap_isSome_iff (posA : Fin 4) (r : RawFeature) (hA : posA.val = r.posA.toNat) :
    (placeBOf .gap posA r).isSome = true ↔ r.posB.toNat ≤ 3 ∧ r.posB ≠ r.posA ∧ r.firstB.toNat ≤ min r.lastB.toNat 511 := by
  have hne (p : Fin 4) (hp : p.val = r.posB.toNat) : p ≠ posA ↔ r.posB ≠ r.posA := by
    rw [ne_eq, Fin.ext_iff, hp, hA, BitVec.toNat_inj]
  simp only [Option.isSome_iff_exists, Prod.exists, placeBOf_gap_eq_some_iff]
  constructor
  · rintro ⟨o, clamped, hle, -, p, hp, hpne, -⟩
    exact ⟨hp ▸ Nat.le_of_lt_succ p.isLt, (hne p hp).mp hpne, hle⟩
  · rintro ⟨hb, hbne, hle⟩
    exact ⟨_, _, hle, rfl, ⟨r.posB.toNat, Nat.lt_succ_of_le hb⟩, rfl, (hne _ rfl).mpr hbne, rfl⟩

theorem featureOf_isSome_iff (r : RawFeature) : (featureOf r).isSome = true ↔
    r.kind.toNat ≤ 3 ∧ r.posA.toNat ≤ 3 ∧ r.firstA.toNat ≤ min r.lastA.toNat 511 ∧ 1 ≤ r.minPoints.toNat ∧ r.minPoints.toNat ≤ 512
      ∧ r.trended.toNat ≤ 1 ∧ (limitsOf r.limits).isSome = true
      ∧ (r.kind = 2 → r.posB.toNat ≤ 3 ∧ r.posB ≠ r.posA ∧ r.firstB.toNat ≤ min r.lastB.toNat 511) := by
  constructor
  · intro h
    obtain ⟨⟨f, clamped⟩, hf⟩ := Option.isSome_iff_exists.mp h
    obtain ⟨kind, posA, placeB, limits, cb, cl, hk, hp, hle, ht, hl, hb, hlow, hhigh, -, -⟩ := featureOf_eq_some_iff.mp hf
    refine ⟨(kindByte_isSome_iff _).mp (by rw [hk]; rfl), hp ▸ Nat.le_of_lt_succ posA.isLt, hle, hlow, hhigh, ht, by rw [hl]; rfl,
      fun hgap => ?_⟩
    rw [(kindByte_gap_iff _).mpr hgap, Option.some.injEq] at hk
    subst hk
    exact (placeBOf_gap_isSome_iff posA r hp).mp (by rw [hb]; rfl)
  · rintro ⟨hk, hp, hle, hlow, hhigh, ht, hl, hb⟩
    obtain ⟨kind, hkind⟩ := Option.isSome_iff_exists.mp ((kindByte_isSome_iff _).mpr hk)
    obtain ⟨⟨limits, cl⟩, hlimits⟩ := Option.isSome_iff_exists.mp hl
    have hplace : (placeBOf kind ⟨r.posA.toNat, Nat.lt_succ_of_le hp⟩ r).isSome = true := by
      by_cases hgap : kind = .gap
      · subst hgap
        exact (placeBOf_gap_isSome_iff _ r rfl).mpr (hb ((kindByte_gap_iff _).mp hkind))
      · rw [placeBOf_of_ne_gap _ r hgap]
        rfl
    obtain ⟨⟨placeB, cb⟩, hplaceB⟩ := Option.isSome_iff_exists.mp hplace
    exact Option.isSome_iff_exists.mpr ⟨_, featureOf_eq_some_iff.mpr
      ⟨kind, _, placeB, limits, cb, cl, hkind, rfl, hle, ht, hlimits, hplaceB, hlow, hhigh, rfl, rfl⟩⟩

/-- The fields of a feature record that a request carries, and when one was brought into range (R13, R70). -/
theorem featureOf_fields {r : RawFeature} {f : Feature} {clamped : Bool} (h : featureOf r = some (f, clamped)) :
    f.featureId = r.featureId.toNat ∧ kindByte r.kind = some f.kind ∧ f.placeA.position.val = r.posA.toNat
      ∧ f.placeA.window = { first := r.firstA.toNat, last := min r.lastA.toNat 511 } ∧ f.minPoints = r.minPoints.toNat
      ∧ f.trended = decide (r.trended = 1) ∧ (∃ b, limitsOf r.limits = some (f.limits, b))
      ∧ (r.kind ≠ 2 → f.placeB = none)
      ∧ (r.kind = 2 → ∃ p, p.position.val = r.posB.toNat ∧ p.window = { first := r.firstB.toNat, last := min r.lastB.toNat 511 }
          ∧ f.placeB = some p)
      ∧ (clamped = true ↔ 511 < r.lastA.toNat ∨ (r.kind = 2 ∧ 511 < r.lastB.toNat) ∨ r.limits.kOpen = 0 ∨ 15 < r.limits.kOpen.toNat
          ∨ r.limits.kClose = 0 ∨ 15 < r.limits.kClose.toNat) := by
  obtain ⟨kind, posA, placeB, limits, cb, cl, hk, hp, hle, ht, hl, hb, hlow, hhigh, rfl, rfl⟩ := featureOf_eq_some_iff.mp h
  have hgap : r.kind = 2 ↔ kind = .gap := by rw [← kindByte_gap_iff, hk, Option.some.injEq]
  have hcb : cb = true ↔ r.kind = 2 ∧ 511 < r.lastB.toNat := by
    by_cases hkind : kind = .gap
    · subst hkind
      obtain ⟨-, rfl, -⟩ := placeBOf_gap_eq_some_iff.mp hb
      rw [decide_eq_true_eq, and_iff_right (hgap.mpr rfl)]
    · rw [placeBOf_of_ne_gap _ r hkind] at hb
      cases hb
      exact iff_of_false Bool.false_ne_true fun h => hkind (hgap.mp h.1)
  refine ⟨rfl, hk, hp, rfl, rfl, rfl, ⟨cl, hl⟩, fun hne => ?_, fun h2 => ?_, ?_⟩
  · rw [placeBOf_of_ne_gap _ r fun hkind => hne (hgap.mpr hkind)] at hb
    cases hb
    rfl
  · obtain rfl := hgap.mp h2
    obtain ⟨-, -, p, hpB, -, rfl⟩ := placeBOf_gap_eq_some_iff.mp hb
    exact ⟨_, hpB, rfl, rfl⟩
  · rw [Bool.or_eq_true, Bool.or_eq_true, decide_eq_true_eq, hcb, limitsOf_clamped_iff hl, or_assoc]

/-! ### The thermal section -/

theorem thermalOf_eq_some_iff {r : RawThermal} {t : ThermalSection} {clamped : Bool} : thermalOf r = some (t, clamped) ↔
    t = { u0 := r.u0.toNat, u1 := r.u1.toNat, u2 := r.u2.toNat, k0 := r.k0.toNat, k1 := r.k1.toNat, k2 := r.k2.toNat, k3 := r.k3.toNat,
          hysteresis := min 500 r.hysteresis.toNat, defaultTemp := r.defaultTemp.toNat, hold := min 5000 r.hold.toNat }
      ∧ (r.u0.toNat < r.u1.toNat ∧ r.u1.toNat < r.u2.toNat ∧ r.u2.toNat ≤ 6095 ∧ r.k0.toNat ≤ 5000 ∧ r.k1.toNat ≤ 5000
        ∧ r.k2.toNat ≤ 5000 ∧ r.k3.toNat ≤ 5000 ∧ 2000 ≤ r.defaultTemp.toNat ∧ r.defaultTemp.toNat ≤ 6095)
      ∧ clamped = (decide (500 < r.hysteresis.toNat) || decide (5000 < r.hold.toNat)) := by
  simp only [thermalOf, ThermalSection.increasing, ThermalSection.inRange, Option.ite_none_right_eq_some, Option.some.injEq,
    Prod.mk.injEq, Bool.and_eq_true, decide_eq_true_eq, Nat.min_comm r.hysteresis.toNat, Nat.min_comm r.hold.toNat]
  have hhysteresis : min 500 r.hysteresis.toNat ≤ 500 := Nat.min_le_left _ _
  have hhold : min 5000 r.hold.toNat ≤ 5000 := Nat.min_le_left _ _
  constructor
  · rintro ⟨⟨hup, ⟨⟨⟨hbounds, hk⟩, -⟩, htemp⟩, -⟩, rfl, rfl⟩
    exact ⟨rfl, ⟨hup.1, hup.2, hbounds.2.2, hk.1, hk.2.1, hk.2.2.1, hk.2.2.2, htemp⟩, rfl⟩
  · rintro ⟨rfl, ⟨h0, h1, h2, hk0, hk1, hk2, hk3, htemp⟩, rfl⟩
    exact ⟨⟨⟨h0, h1⟩, ⟨⟨⟨⟨Nat.le_of_lt h0, Nat.le_of_lt h1, h2⟩, hk0, hk1, hk2, hk3⟩, hhysteresis⟩, htemp⟩, hhold⟩, rfl, rfl⟩

/-! ### The line section -/

/-- The line section that the fields make under its severities. -/
def lineCarried (r : RawLine) (stop blind : Grade) : LineSection :=
  { dHead := r.dHead.toNat, dSaw := r.dSaw.toNat, scanPitch := clamp 1000 100000 r.scanPitch.toNat, scaleA := r.scaleA.toNat,
    scaleB := r.scaleB.toNat, weldLead := r.weldLead.toNat, weldLength := r.weldLength.toNat, stopMargin := r.stopMargin.toNat,
    stopSeverity := stop, noseCrop := r.noseCrop.toNat, tailCrop := r.tailCrop.toNat, minLength := r.minLength.toNat,
    mergeGap := clamp 0 1000 r.mergeGap.toNat, blindLimit := clamp 0 255 r.blindLimit.toNat, blindSeverity := blind,
    lineWait := clamp 1 100 r.lineWait.toNat }

theorem lineOf_eq_some_iff {r : RawLine} {l : LineSection} {clamped : Bool} : lineOf r = some (l, clamped) ↔
    r.stopSeverity.toNat ≤ 1 ∧ r.blindSeverity.toNat ≤ 1
      ∧ l = lineCarried r (if r.stopSeverity = 0 then .minor else .major) (if r.blindSeverity = 0 then .minor else .major)
      ∧ l.unclampedInRange = true
      ∧ clamped = (decide (l.scanPitch ≠ r.scanPitch.toNat) || decide (l.mergeGap ≠ r.mergeGap.toNat)
          || decide (l.blindLimit ≠ r.blindLimit.toNat) || decide (l.lineWait ≠ r.lineWait.toNat)) := by
  constructor
  · intro h
    unfold lineOf at h
    split at h
    · next hs hb =>
      obtain ⟨hs', rfl⟩ := gradeOf_eq_some_iff.mp hs
      obtain ⟨hb', rfl⟩ := gradeOf_eq_some_iff.mp hb
      simp only [Option.ite_none_right_eq_some, Option.some.injEq, Prod.mk.injEq] at h
      obtain ⟨hrange, rfl, rfl⟩ := h
      exact ⟨hs', hb', rfl, hrange, rfl⟩
    · cases h
  · rintro ⟨hs, hb, rfl, hrange, rfl⟩
    simp only [lineOf, gradeOf_eq_some_iff.mpr ⟨hs, rfl⟩, gradeOf_eq_some_iff.mpr ⟨hb, rfl⟩]
    exact if_pos hrange

theorem lineCarried_unclamped_iff (r : RawLine) (stop blind : Grade) : (lineCarried r stop blind).unclampedInRange = true ↔
    r.dHead.toNat ≤ 100000 ∧ r.dSaw.toNat ≤ 100000 ∧ 1 ≤ r.scaleA.toNat ∧ r.scaleA.toNat ≤ 10000 ∧ 1 ≤ r.scaleB.toNat
      ∧ r.scaleB.toNat ≤ 10000 ∧ r.weldLead.toNat ≤ 50000 ∧ r.weldLength.toNat ≤ 50000 ∧ r.stopMargin.toNat ≤ 2000
      ∧ r.noseCrop.toNat ≤ 20000 ∧ r.tailCrop.toNat ≤ 20000 ∧ r.minLength.toNat ≤ 100000 := by
  simp only [LineSection.unclampedInRange, Bool.and_eq_true, decide_eq_true_eq, and_assoc]
  rfl

theorem lineOf_isSome_iff (r : RawLine) : (lineOf r).isSome = true ↔
    r.dHead.toNat ≤ 100000 ∧ r.dSaw.toNat ≤ 100000 ∧ 1 ≤ r.scaleA.toNat ∧ r.scaleA.toNat ≤ 10000 ∧ 1 ≤ r.scaleB.toNat
      ∧ r.scaleB.toNat ≤ 10000 ∧ r.weldLead.toNat ≤ 50000 ∧ r.weldLength.toNat ≤ 50000 ∧ r.stopMargin.toNat ≤ 2000
      ∧ r.stopSeverity.toNat ≤ 1 ∧ r.noseCrop.toNat ≤ 20000 ∧ r.tailCrop.toNat ≤ 20000 ∧ r.minLength.toNat ≤ 100000
      ∧ r.blindSeverity.toNat ≤ 1 := by
  simp only [Option.isSome_iff_exists, Prod.exists, lineOf_eq_some_iff]
  constructor
  · rintro ⟨l, clamped, hs, hb, rfl, hrange, -⟩
    obtain ⟨h1, h2, h3, h4, h5, h6, h7, h8, h9, h10⟩ := (lineCarried_unclamped_iff r _ _).mp hrange
    exact ⟨h1, h2, h3, h4, h5, h6, h7, h8, h9, hs, h10.1, h10.2.1, h10.2.2, hb⟩
  · rintro ⟨h1, h2, h3, h4, h5, h6, h7, h8, h9, hs, h10, h11, h12, hb⟩
    exact ⟨_, _, hs, hb, rfl, (lineCarried_unclamped_iff r _ _).mpr ⟨h1, h2, h3, h4, h5, h6, h7, h8, h9, h10, h11, h12⟩, rfl⟩

end Sys2Proof.Machine
end

section
/-! The requests that edit the working card, by the first case that applies (R3, R4, R26, R62, R63, R70 to R73, R92, R135, R137,
R138). -/

namespace Sys2Proof.Machine

theorem State.pressIdle_eq_true {s : State} (h : s.tracker.press = .idle) : s.pressIdle = true := beq_iff_eq.mpr h

theorem State.pressIdle_eq_false {s : State} (h : s.tracker.press ≠ .idle) : s.pressIdle = false := beq_eq_false_iff_ne.mpr h

theorem lt_of_le_seven {b : Byte} (h : b.toNat ≤ 7) : b.toNat < 8 := Nat.lt_succ_of_le h

theorem lt_of_le_31 {b : Byte} (h : b.toNat ≤ 31) : b.toNat < 32 := Nat.lt_succ_of_le h

/-- The reply to an edit carried out, by whether a field was brought into range (R139, R158). -/
theorem editReply_eq (clamped : Bool) (echo : List Byte) (s : State) : editReply clamped echo s =
    (s, { status := if clamped then .clamped else .ok, reason := none,
          fields := bytes32 s.store.digest ++ (if clamped then echo else []) }) := by
  cases clamped
  · simp [editReply, okReply]
  · rfl

/-! ### SET_HEAD and SET_CURVE -/

theorem State.setHead_of_index {s : State} {head : Byte} {i : Fin 8} (r : RawHead) (h : indexOf 8 head = some i)
    (hpress : s.tracker.press = .idle) : s.setHead head r = match headRecordOf r with
      | none => (s, refused .badValue)
      | some h => if placeTaken s.store.card i h then (s, refused .badValue) else editReply false [] (s.putHead i h) := by
  simp only [State.setHead, h]
  exact if_neg (State.pressIdle_of_idle hpress)

theorem State.setCurve_of_index {s : State} {head : Byte} {i : Fin 8} (points : List Word32) (h : indexOf 8 head = some i)
    (hpress : s.tracker.press = .idle) : s.setCurve head points = match curveOf points with
      | none => (s, refused .badValue)
      | some v => editReply false [] (s.edit { s.store.card with curves := setAt s.store.card.curves i v }) := by
  simp only [State.setCurve, h]
  exact if_neg (State.pressIdle_of_idle hpress)

theorem curvePointInRange_iff (p : Int) : curvePointInRange p = true ↔ -500000 ≤ p ∧ p ≤ 500000 := by
  rw [curvePointInRange, decide_eq_true_eq]

/-- Settles O43: the head record carried, and the cases of SET_HEAD and SET_CURVE. -/
theorem setHeadAndSetCurveFirstCaseThatApplies : Obligations.SetHeadAndSetCurveFirstCaseThatApplies := by
  unfold Obligations.SetHeadAndSetCurveFirstCaseThatApplies
  refine ⟨fun r => ⟨headRecordOf_isSome_iff r, fun h hr => ?_⟩, fun s head r hserves => ?_, fun s head points hserves hlength => ?_⟩
  · obtain ⟨-, strand, position, hstrand, hposition, -, rfl⟩ := headRecordOf_eq_some_iff.mp hr
    exact ⟨rfl, hstrand, hposition, rfl, rfl, rfl, rfl, rfl, rfl, rfl, rfl, rfl, rfl⟩
  · refine ⟨fun hbad => ?_, fun hhead hpress => ?_, fun hhead hpress hnone => ?_, fun i h hhead hpress hr => ⟨fun htaken => ?_,
      fun hfree c e hc he => ?_⟩⟩
    · refine State.refuses_of rfl hserves ?_
      rw [State.setHead, indexOf_of_ge hbad]
    · refine State.refuses_of rfl hserves ?_
      simp only [State.setHead, indexOf_of_lt (lt_of_le_seven hhead)]
      rw [if_pos (State.pressIdle_of_running hpress)]
    · refine State.refuses_of rfl hserves ?_
      rw [State.setHead_of_index r (indexOf_of_lt (lt_of_le_seven hhead)) hpress, hnone]
    · refine State.refuses_of rfl hserves ?_
      rw [State.setHead_of_index r (indexOf_eq_some_iff.mpr hhead) hpress, hr]
      exact if_pos ((placeTaken_iff _ i h).mpr htaken)
    · subst hc he
      refine State.exec_of_served rfl hserves ?_
      rw [State.setHead_of_index r (indexOf_eq_some_iff.mpr hhead) hpress, hr]
      exact if_neg fun htaken => hfree ((placeTaken_iff _ i h).mp htaken)
  · refine ⟨fun hbad => ?_, fun hhead hpress => ?_, fun hhead hpress hout => ?_, fun i c hhead hpress hin hc => ?_⟩
    · refine State.refuses_of rfl hserves ?_
      rw [State.setCurve, indexOf_of_ge hbad]
    · refine State.refuses_of rfl hserves ?_
      simp only [State.setCurve, indexOf_of_lt (lt_of_le_seven hhead)]
      rw [if_pos (State.pressIdle_of_running hpress)]
    · have hnone : curveOf points = none := if_neg fun ⟨_, hall⟩ => by
        obtain ⟨q, hq, hq'⟩ := hout
        have := (curvePointInRange_iff _).mp (List.all_eq_true.mp hall q hq)
        omega
      refine State.refuses_of rfl hserves ?_
      rw [State.setCurve_of_index points (indexOf_of_lt (lt_of_le_seven hhead)) hpress, hnone]
    · have hsome : curveOf points = some (Vector.ofFn fun n => (points.getD n.val 0).toInt) :=
        if_pos ⟨hlength, List.all_eq_true.mpr fun q hq => (curvePointInRange_iff _).mpr (hin q hq)⟩
      subst hc
      refine State.exec_of_served rfl hserves ?_
      rw [State.setCurve_of_index points (indexOf_eq_some_iff.mpr hhead) hpress, hsome]
      rfl

/-! ### SET_FEATURE and CLEAR_FEATURE -/

theorem State.setFeature_of_index {s : State} {feature : Byte} {i : Fin 32} (r : RawFeature) (h : indexOf 32 feature = some i)
    (hpress : s.tracker.press = .idle) : s.setFeature feature r = match featureOf r with
      | none => (s, refused .badValue)
      | some (f, clamped) =>
          if f.trended && decide (8 ≤ trendedOthers s.store.card i) then (s, refused .badValue)
          else editReply clamped (featureFields f) (s.putFeature i (some f)) := by
  simp only [State.setFeature, h]
  exact if_neg (State.pressIdle_of_idle hpress)

/-- A feature replaced or made absent, block by block (R71, R72, R80, R90). -/
theorem State.putFeature_eq (i : Fin 32) (f : Option Feature) (s : State) : s.putFeature i f = { s with
    store := { s.store with
      card := { s.store.card with features := setAt s.store.card.features i f },
      digest := digestOf { s.store.card with features := setAt s.store.card.features i f } },
    engine := { s.engine with
      persistence := Vector.ofFn fun j => setAt s.engine.persistence[j] i Persistence.clear,
      evaluation := s.engine.evaluation.map fun v => { v with track := false } } } := rfl

/-- Settles O44: the feature record carried, and the cases of SET_FEATURE and CLEAR_FEATURE. -/
theorem setFeatureAndClearFeatureFirstCaseThatApplies : Obligations.SetFeatureAndClearFeatureFirstCaseThatApplies := by
  unfold Obligations.SetFeatureAndClearFeatureFirstCaseThatApplies
  refine ⟨fun r => ⟨featureOf_isSome_iff r, fun f clamped hr => featureOf_fields hr⟩, fun s feature r hserves => ?_,
    fun s feature hserves => ?_⟩
  · refine ⟨fun hbad => ?_, fun hfeature hpress => ?_, fun hfeature hpress hnone => ?_,
      fun i f clamped others hfeature hpress hr hothers => ⟨fun htrended hfull => ?_, fun hroom c hc => ?_⟩⟩
    · refine State.refuses_of rfl hserves ?_
      rw [State.setFeature, indexOf_of_ge hbad]
    · refine State.refuses_of rfl hserves ?_
      simp only [State.setFeature, indexOf_of_lt (lt_of_le_31 hfeature)]
      rw [if_pos (State.pressIdle_of_running hpress)]
    · refine State.refuses_of rfl hserves ?_
      rw [State.setFeature_of_index r (indexOf_of_lt (lt_of_le_31 hfeature)) hpress, hnone]
    · have hcount : 8 ≤ trendedOthers s.store.card i := le_of_le_of_eq hfull hothers
      refine State.refuses_of rfl hserves ?_
      rw [State.setFeature_of_index r (indexOf_eq_some_iff.mpr hfeature) hpress, hr]
      exact if_pos (by rw [htrended, decide_eq_true hcount]; rfl)
    · have hfits : ¬ (f.trended && decide (8 ≤ trendedOthers s.store.card i)) = true := by
        rw [Bool.and_eq_true, decide_eq_true_eq]
        rintro ⟨htrended, hcount⟩
        have hcount' : 8 ≤ others := le_of_le_of_eq hcount hothers.symm
        obtain h | h := hroom
        · rw [htrended] at h
          cases h
        · omega
      subst hc
      refine State.exec_of_served rfl hserves ?_
      rw [State.setFeature_of_index r (indexOf_eq_some_iff.mpr hfeature) hpress, hr]
      refine (if_neg hfits).trans ?_
      rw [editReply_eq, State.putFeature_eq]
  · refine ⟨fun hbad => ?_, fun hfeature hpress => ?_, fun i c hfeature hpress hc => ?_⟩
    · refine State.refuses_of rfl hserves ?_
      rw [State.clearFeature, indexOf_of_ge hbad]
    · refine State.refuses_of rfl hserves ?_
      simp only [State.clearFeature, indexOf_of_lt (lt_of_le_31 hfeature)]
      rw [if_pos (State.pressIdle_of_running hpress)]
    · subst hc
      refine State.exec_of_served rfl hserves ?_
      simp only [State.clearFeature, indexOf_eq_some_iff.mpr hfeature]
      rw [if_neg (State.pressIdle_of_idle hpress), State.putFeature_eq]
      rfl

/-! ### SET_LIMITS -/

theorem State.setLimits_of_present {s : State} {feature : Byte} {i : Fin 32} {f : Feature} (r : RawLimits)
    (h : indexOf 32 feature = some i) (hf : s.store.card.features[i] = some f) : s.setLimits feature r = match limitsOf r with
      | none => (s, refused .badValue)
      | some (l, clamped) =>
          if s.pressIdle then editReply clamped (limitsFields l) (s.putLimits i f l)
          else (s.withStore (s.store.defer i l), deferredReply (bytes32 s.store.digest ++ limitsFields l)) := by
  simp only [State.setLimits, h]
  rw [hf] <;> rfl

theorem State.setLimits_of_absent {s : State} {feature : Byte} {i : Fin 32} (r : RawLimits) (h : indexOf 32 feature = some i)
    (hf : s.store.card.features[i] = none) : s.setLimits feature r = (s, refused .badValue) := by
  simp only [State.setLimits, h]
  rw [hf]

/-- Settles O45: the limits carried, and the cases of SET_LIMITS. -/
theorem setLimitsFirstCaseThatApplies : Obligations.SetLimitsFirstCaseThatApplies := by
  unfold Obligations.SetLimitsFirstCaseThatApplies
  refine ⟨fun r => ⟨limitsOf_isSome_iff r, fun l clamped hr => ?_⟩, fun s feature r hserves => ⟨fun hbad => ?_, fun i hfeature => ?_⟩⟩
  · have hclamped := limitsOf_clamped_iff hr
    obtain ⟨-, rfl, -, -⟩ := limitsOf_eq_some_iff.mp hr
    exact ⟨rfl, rfl, rfl, rfl, rfl, rfl, hclamped⟩
  · refine State.refuses_of rfl hserves ?_
    rw [State.setLimits, indexOf_of_ge hbad]
  · have hi : indexOf 32 feature = some i := indexOf_eq_some_iff.mpr hfeature
    refine ⟨fun hnone => State.refuses_of rfl hserves (State.setLimits_of_absent r hi hnone), fun hnone => ?_,
      fun f l clamped hf hr => ⟨fun hpress c hc => ?_, fun hpress => ?_⟩⟩
    · refine State.refuses_of rfl hserves ?_
      cases hf : s.store.card.features[i] with
      | none => exact State.setLimits_of_absent r hi hf
      | some f => rw [State.setLimits_of_present r hi hf, hnone]
    · subst hc
      refine State.exec_of_served rfl hserves ?_
      rw [State.setLimits_of_present r hi hf, hr]
      refine (if_pos (State.pressIdle_eq_true hpress)).trans ?_
      rw [editReply_eq]
      rfl
    · refine State.exec_of_served rfl hserves ?_
      rw [State.setLimits_of_present r hi hf, hr]
      exact if_neg (by rw [State.pressIdle_eq_false hpress]; decide)

/-! ### SET_THERMAL -/

/-- Settles O46: the thermal section carried, the cases of SET_THERMAL, and what each strand takes. -/
theorem setThermalFirstCaseThatApplies : Obligations.SetThermalFirstCaseThatApplies := by
  unfold Obligations.SetThermalFirstCaseThatApplies
  refine ⟨fun r => ⟨?_, fun t clamped hr => ?_⟩, fun s r hserves => ⟨fun hpress => ?_, fun hpress hnone => ?_,
    fun t clamped c hpress hr hc => ?_⟩⟩
  · simp only [Option.isSome_iff_exists, Prod.exists, thermalOf_eq_some_iff]
    exact ⟨fun ⟨_, _, _, hranges, _⟩ => hranges, fun hranges => ⟨_, _, rfl, hranges, rfl⟩⟩
  · obtain ⟨ht, -, rfl⟩ := thermalOf_eq_some_iff.mp hr
    exact ⟨ht, by rw [Bool.or_eq_true, decide_eq_true_eq, decide_eq_true_eq]⟩
  · exact State.refuses_of rfl hserves (if_pos (State.pressIdle_of_running hpress))
  · refine State.refuses_of rfl hserves ?_
    rw [State.setThermal, if_neg (State.pressIdle_of_idle hpress), hnone]
  · subst hc
    refine ⟨recordsAfter t s.now s.thermal, State.exec_of_served rfl hserves ?_, fun i => ?_⟩
    · rw [State.setThermal, if_neg (State.pressIdle_of_idle hpress), hr]
      refine (editReply_eq _ _ _).trans ?_
      rfl
    · rw [recordsAfter_get]
      exact ThermalRecord.takeSection_fields t s.now s.thermal[i]

/-! ### SET_LINE and SET_IDENTITY -/

theorem lineOf_clamped_iff {r : RawLine} {l : LineSection} {clamped : Bool} (h : lineOf r = some (l, clamped)) :
    clamped = true ↔ r.scanPitch.toNat < 1000 ∨ 100000 < r.scanPitch.toNat ∨ 1000 < r.mergeGap.toNat
      ∨ 255 < r.blindLimit.toNat ∨ r.lineWait = 0 ∨ 100 < r.lineWait.toNat := by
  have hzero : r.lineWait = 0 ↔ r.lineWait.toNat < 1 := by
    rw [Nat.lt_one_iff, ← BitVec.toNat_inj]
    rfl
  obtain ⟨-, -, rfl, -, rfl⟩ := lineOf_eq_some_iff.mp h
  simp only [lineCarried, Bool.or_eq_true, decide_eq_true_eq, clamp_ne_iff _ (show 1000 ≤ 100000 by decide),
    clamp_ne_iff _ (show 0 ≤ 1000 by decide), clamp_ne_iff _ (show 0 ≤ 255 by decide), clamp_ne_iff _ (show 1 ≤ 100 by decide), hzero,
    Nat.not_lt_zero, false_or, or_assoc]

/-- The fields of the line section that a request carries (R137). -/
theorem lineOf_fields {r : RawLine} {l : LineSection} {clamped : Bool} (h : lineOf r = some (l, clamped)) :
    l = { dHead := r.dHead.toNat, dSaw := r.dSaw.toNat, scanPitch := max 1000 (min 100000 r.scanPitch.toNat),
          scaleA := r.scaleA.toNat, scaleB := r.scaleB.toNat, weldLead := r.weldLead.toNat, weldLength := r.weldLength.toNat,
          stopMargin := r.stopMargin.toNat, stopSeverity := if r.stopSeverity = 0 then .minor else .major,
          noseCrop := r.noseCrop.toNat, tailCrop := r.tailCrop.toNat, minLength := r.minLength.toNat,
          mergeGap := min 1000 r.mergeGap.toNat, blindLimit := min 255 r.blindLimit.toNat,
          blindSeverity := if r.blindSeverity = 0 then .minor else .major, lineWait := max 1 (min 100 r.lineWait.toNat) } := by
  obtain ⟨-, -, rfl, -, -⟩ := lineOf_eq_some_iff.mp h
  simp only [lineCarried, clamp, Nat.zero_max]

theorem pitchApart_iff (a b : LineSection) : pitchApart a b = true ↔ { a with scanPitch := b.scanPitch } = b := beq_iff_eq

/-- The line section replaced where the press is IDLE (R26). -/
theorem State.putLine_of_idle {s : State} (l : LineSection) (h : s.tracker.press = .idle) : s.putLine l = { s with
    store := { s.store with card := { s.store.card with line := l }, digest := digestOf { s.store.card with line := l } },
    runout := if l.scanPitch = s.store.card.line.scanPitch then s.runout
              else { s.runout with pitch := l.scanPitch, nextPitch := none } } := by
  rw [State.putLine, State.pressIdle_eq_true h, if_neg fun hcase => Bool.false_ne_true hcase.2.symm]
  simp only [TravelUnit.takePitch, if_true, eq_comm (a := l.scanPitch)]
  rfl

/-- The line section replaced during a run (R138). -/
theorem State.putLine_of_running {s : State} {l : LineSection} (h : s.tracker.press ≠ .idle) (hpitch : l.scanPitch ≠ s.store.card.line.scanPitch) :
    s.putLine l = { s with
      store := { s.store with card := { s.store.card with line := l }, digest := digestOf { s.store.card with line := l } },
      runout := { s.runout with nextPitch := some l.scanPitch } } := by
  have hne : l ≠ s.store.card.line := fun heq => hpitch (congrArg LineSection.scanPitch heq)
  rw [State.putLine, State.pressIdle_eq_false h, if_neg fun hcase => hne hcase.1]
  simp only [TravelUnit.takePitch, if_neg hpitch.symm, Bool.false_eq_true, if_false]
  rfl

/-- Settles O47: the line section carried, and the cases of SET_LINE and SET_IDENTITY. -/
theorem setLineAndSetIdentityFirstCaseThatApplies : Obligations.SetLineAndSetIdentityFirstCaseThatApplies := by
  unfold Obligations.SetLineAndSetIdentityFirstCaseThatApplies
  refine ⟨fun r => ⟨lineOf_isSome_iff r, fun l clamped hr => ⟨lineOf_fields hr, lineOf_clamped_iff hr⟩⟩,
    fun s r hserves => ⟨fun hnone => ?_, fun l clamped c b hr hc hb => ?_⟩, fun s die revision alloy strands hserves => ?_⟩
  · refine State.refuses_of rfl hserves ?_
    rw [State.setLine, hnone]
  · have hline : s.setLine r = if (s.pressIdle || pitchApart l s.store.card.line) = true then
        editReply clamped (lineSectionFields l) (s.putLine l) else (s, refused .running) := by
      simp only [State.setLine, hr]
    have happly (h : (s.pressIdle || pitchApart l s.store.card.line) = true) :
        s.setLine r = (s.putLine l, b (s.putLine l).store.digest) := by
      rw [hline, if_pos h, editReply_eq, hb]
    have hapart (hpress : s.tracker.press ≠ .idle) :
        (s.pressIdle || pitchApart l s.store.card.line) = true ↔ { l with scanPitch := s.store.card.line.scanPitch } = s.store.card.line := by
      rw [State.pressIdle_eq_false hpress, Bool.false_or, pitchApart_iff]
    subst hc
    refine ⟨fun hpress => ?_, fun hpress hne => ?_, fun hpress heq => ?_, fun hpress heq hne => ?_⟩
    · refine State.exec_of_served rfl hserves ?_
      rw [happly (by rw [State.pressIdle_eq_true hpress]; rfl), State.putLine_of_idle l hpress]
    · refine State.refuses_of rfl hserves ?_
      rw [hline, if_neg fun h => hne ((hapart hpress).mp h)]
    · refine State.exec_of_served rfl hserves ?_
      rw [happly ((hapart hpress).mpr (by rw [← heq])), State.putLine, if_pos ⟨heq, State.pressIdle_eq_false hpress⟩]
    · have hpitch : l.scanPitch ≠ s.store.card.line.scanPitch := fun h => hne (by rw [← heq, ← h])
      refine State.exec_of_served rfl hserves ?_
      rw [happly ((hapart hpress).mpr heq), State.putLine_of_running hpress hpitch]
  · refine ⟨fun hpress => ?_, fun hpress hbad => ?_, fun c hpress hlow hhigh hc => ?_⟩
    · exact State.refuses_of rfl hserves (if_pos (State.pressIdle_of_running hpress))
    · refine State.refuses_of rfl hserves ?_
      rw [State.setIdentity, if_neg (State.pressIdle_of_idle hpress), if_pos (hbad.imp_right fun h => by omega)]
    · subst hc
      have hgood : ¬ (strands = 0 ∨ 4 < strands.toNat) := by
        rw [byte_eq_zero_iff]
        omega
      refine State.exec_of_served rfl hserves ?_
      rw [State.setIdentity, if_neg (State.pressIdle_of_idle hpress), if_neg hgood, State.putIdentity, Tracker.follow_eq]
      simp only [eq_comm (a := strands.toNat)]
      rfl

end Sys2Proof.Machine
end

section
/-! The scan and zone events that the tracker takes from the section engine, and the rules of its closed-zone lists (R103 to R108, R110,
R111). -/

namespace Sys2Proof.Machine

/-! ### An arrival at a strand -/

theorem setAt_get_self {n : Nat} {α : Type} (v : Vector α n) (i : Fin n) : setAt v i v[i] = v := by
  refine Vector.ext fun j hj => ?_
  have h := setAt_get v i ⟨j, hj⟩ v[i]
  simp only [Fin.getElem_fin] at h ⊢
  rw [h]
  split
  · next heq => rw [← heq]
  · rfl

theorem State.withStrand_self (s : State) (i : Fin 4) : s.withStrand i s.tracker.strands[i] = s := by
  simp only [State.withStrand, Tracker.putStrand, setAt_get_self]
  rfl

/-- A late result counted (R103, R105, R109 to R111). -/
theorem ReportUnit.countLateResult_eq (r : ReportUnit) : r.countLateResult =
    { r with counters := { r.counters with lateResult := min 65535 (r.counters.lateResult + 1) }, flags := r.flags ||| 256#11 } := rfl

theorem State.withTracked_quiet (s : State) (i : Fin 4) (st : Strand) : s.withTracked i st.quiet =
    { s with tracker := { s.tracker with strands := setAt s.tracker.strands i st } } := rfl

theorem State.withTracked_tooLate (s : State) (i : Fin 4) (st : Strand) : s.withTracked i st.tooLate =
    { s with tracker := { s.tracker with strands := setAt s.tracker.strands i st }, report := s.report.countLateResult } := rfl

/-- A strand left as it is. -/
theorem State.withTracked_quiet_self (s : State) (i : Fin 4) : s.withTracked i s.tracker.strands[i].quiet = s :=
  s.withStrand_self i

/-- A strand left as it is, with a late result counted. -/
theorem State.withTracked_tooLate_self (s : State) (i : Fin 4) :
    s.withTracked i s.tracker.strands[i].tooLate = { s with report := s.report.countLateResult } := by
  rw [State.withTracked_tooLate, setAt_get_self]

theorem exec_scanEvent {s : State} {e : ScanEvent} (hpowered : s.powered = true) (h : s.offers (.scan e)) :
    exec (.scanEvent e) s = .next (s.received.withTracked e.strand (s.tracker.strands[e.strand].takeScan e)) := by
  have hexec : exec (.scanEvent e) s = .next (s.takeEvent (.scan e) (State.takeScan e)) :=
    State.event_powered (fun s => s.takeEvent (.scan e) (State.takeScan e)) hpowered
  rw [hexec, State.takeEvent_offered _ h]
  rfl

theorem exec_zoneOpenEvent {s : State} {e : ZoneOpen} (hpowered : s.powered = true) (h : s.offers (.start e)) :
    exec (.zoneOpenEvent e) s = .next (s.received.withTracked e.strand (s.tracker.strands[e.strand].openZone e)) := by
  have hexec : exec (.zoneOpenEvent e) s = .next (s.takeEvent (.start e) (State.takeOpen e)) :=
    State.event_powered (fun s => s.takeEvent (.start e) (State.takeOpen e)) hpowered
  rw [hexec, State.takeEvent_offered _ h]
  rfl

theorem exec_zoneUpdateEvent {s : State} {e : ZoneUpdate} (hpowered : s.powered = true) (h : s.offers (.update e)) :
    exec (.zoneUpdateEvent e) s = .next (s.received.withStrand e.strand (s.tracker.strands[e.strand].updateZone e)) := by
  have hexec : exec (.zoneUpdateEvent e) s = .next (s.takeEvent (.update e) (State.takeUpdate e)) :=
    State.event_powered (fun s => s.takeEvent (.update e) (State.takeUpdate e)) hpowered
  rw [hexec, State.takeEvent_offered _ h]
  rfl

theorem exec_zoneCloseEvent {s : State} {e : ZoneClose} (hpowered : s.powered = true) (h : s.offers (.close e)) :
    exec (.zoneCloseEvent e) s = .next (s.received.withTracked e.strand (s.tracker.strands[e.strand].closeZone s.store.card e)) := by
  have hexec : exec (.zoneCloseEvent e) s = .next (s.takeEvent (.close e) (State.takeClose e)) :=
    State.event_powered (fun s => s.takeEvent (.close e) (State.takeClose e)) hpowered
  rw [hexec, State.takeEvent_offered _ h]
  rfl

theorem Strand.pastTail_iff (st : Strand) (x : Int) : st.pastTail x = true ↔ ∃ t, st.state = .tailing ∧ st.tail = some t ∧ t ≤ x := by
  unfold Strand.pastTail
  split
  · next t hstate htail => simp [hstate, htail]
  · next hno =>
    refine iff_of_false Bool.false_ne_true ?_
    rintro ⟨t, hstate, htail, -⟩
    exact hno t hstate htail

/-! ### Scan events -/

theorem foldTrended_cons (v : TrendValue) (vs : List TrendValue) (xs : Vector Extreme 32) :
    foldTrended (v :: vs) xs = foldTrended vs (setAt xs v.feature (xs[v.feature].fold v.w)) := rfl

/-- The least value after one more. -/
theorem least_after {o o' : Option Int} {v : Int} (hnone : o = none → o' = some v)
    (hsome : ∀ a, o = some a → o' = some (if v < a then v else a)) : o' = some (match (generalizing := false) o with
      | some l => min l v
      | none => v) := by
  cases o with
  | none => exact hnone rfl
  | some l =>
    refine (hsome l rfl).trans (congrArg some ?_)
    change _ = min l v
    split <;> omega

/-- The greatest value after one more. -/
theorem greatest_after {o o' : Option Int} {v : Int} (hnone : o = none → o' = some v)
    (hsome : ∀ a, o = some a → o' = some (if a < v then v else a)) : o' = some (match (generalizing := false) o with
      | some g => max g v
      | none => v) := by
  cases o with
  | none => exact hnone rfl
  | some g =>
    refine (hsome g rfl).trans (congrArg some ?_)
    change _ = max g v
    split <;> omega

/-- What a value makes of an extreme (R110). -/
theorem Extreme.fold_eq {w : Option Int} {x y : Extreme} (hnone : w = none → y = { x with missing := min 65535 (x.missing + 1) })
    (hsome : ∀ v, w = some v → y.missing = x.missing
      ∧ (x.least = none → y.least = some v) ∧ (∀ a, x.least = some a → y.least = some (if v < a then v else a))
      ∧ (x.greatest = none → y.greatest = some v) ∧ ∀ a, x.greatest = some a → y.greatest = some (if a < v then v else a)) :
    x.fold w = y := by
  cases w with
  | none => exact (hnone rfl).symm
  | some v =>
    obtain ⟨hmissing, hleast, hleast', hgreatest, hgreatest'⟩ := hsome v rfl
    obtain ⟨least, greatest, missing⟩ := y
    obtain rfl : missing = x.missing := hmissing
    obtain rfl : least = _ := least_after hleast hleast'
    obtain rfl : greatest = _ := greatest_after hgreatest hgreatest'
    rfl

/-- Settles O37: a scan event that is discarded, one that is late, and one that enters the length. -/
theorem scanEventEntersTheLength : Obligations.ScanEventEntersTheLength := by
  unfold Obligations.ScanEventEntersTheLength
  refine ⟨fun s e st hpowered hoffers hst => ?_, fun xs => rfl, fun v vs xs x y hx hnone hsome => ?_⟩
  · subst hst
    rw [exec_scanEvent hpowered hoffers]
    refine ⟨fun hactive => ?_, fun hactive hlate => ?_, fun hactive habove hbelow => ?_⟩
    · rw [Strand.takeScan, if_pos (by rw [hactive]; rfl)]
      exact congrArg _ (s.received.withTracked_quiet_self e.strand)
    · rw [Strand.takeScan, if_neg (by rw [hactive]; decide), if_pos]
      · exact congrArg _ (s.received.withTracked_tooLate_self e.strand)
      · rw [Bool.or_eq_true, decide_eq_true_eq, Strand.pastTail_iff]
        exact hlate
    · rw [Strand.takeScan, if_neg (by rw [hactive]; decide), if_neg]
      · rfl
      · rw [Bool.or_eq_true, decide_eq_true_eq, Strand.pastTail_iff]
        rintro (hcut | ⟨t, hstate, htail, hle⟩)
        · omega
        · have := hbelow t hstate htail
          omega
  · subst hx
    rw [foldTrended_cons, Extreme.fold_eq hnone hsome]

/-! ### Open and update events -/

theorem joinSides_eq (a b : Sides) : joinSides a b = if a = b then a else .both := by
  cases a <;> cases b <;> rfl

theorem joinSides_sideAsSides (a : Sides) (b : Side) : joinSides a (sideAsSides b) =
    (match a, b with
      | .low, .low => .low
      | .high, .high => .high
      | _, _ => .both) := by
  cases a <;> cases b <;> rfl

theorem nextZoneNumber_eq (n : Nat) : nextZoneNumber n = if n < 65535 then n + 1 else 1 := by
  unfold nextZoneNumber
  by_cases h : n < 65535
  · rw [if_pos h, if_neg (Nat.not_le.mpr h)]
  · rw [if_neg h, if_pos (Nat.not_lt.mp h)]

/-- An open event that is not late reaches the strand's table (R103). -/
theorem Strand.openZone_of_taken {st : Strand} {e : ZoneOpen} (hactive : st.active = true)
    (hbelow : ∀ t, st.state = .tailing → st.tail = some t → e.start < t) : st.openZone e =
      match e.finding with
      | .dimension sides worst =>
          match st.dimensions[e.feature] with
          | some o => Strand.quiet { st with dimensions := setAt st.dimensions e.feature (some (o.update sides (some worst))) }
          | none =>
              { strand := { st with
                  dimensions := setAt st.dimensions e.feature
                    (some { number := st.nextZone, start := st.clip e.start, sides := sides, worst := worst }),
                  nextZone := nextZoneNumber st.nextZone },
                late := st.clipCounts e.start, coarsened := false }
      | .blind =>
          match st.blinds[e.feature] with
          | some _ => st.quiet
          | none =>
              { strand := { st with
                  blinds := setAt st.blinds e.feature (some { number := st.nextZone, start := st.clip e.start }),
                  nextZone := nextZoneNumber st.nextZone },
                late := st.clipCounts e.start, coarsened := false } := by
  have htail : ¬ st.pastTail e.start = true := by
    rw [Strand.pastTail_iff]
    rintro ⟨t, hstate, htail, hle⟩
    have := hbelow t hstate htail
    omega
  have hactive' : ¬ (!st.active) = true := by rw [hactive]; decide
  exact (if_neg hactive').trans (if_neg htail)

theorem Strand.openZone_late {st : Strand} {e : ZoneOpen}
    (h : st.active = false ∨ ∃ t, st.state = .tailing ∧ st.tail = some t ∧ t ≤ e.start) : st.openZone e = st.tooLate := by
  by_cases hactive : st.active = true
  · have htail : st.pastTail e.start = true := by
      rw [Strand.pastTail_iff]
      exact h.resolve_left (by rw [hactive]; decide)
    rw [Strand.openZone, if_neg (by rw [hactive]; decide), if_pos htail]
  · rw [Strand.openZone, if_pos (by simpa using hactive)]

/-- A late result counted where the clip of a start counts (R103). -/
theorem ReportUnit.countTracked_clip {late : ReportUnit} (st : Strand) (start : Int) (r : ReportUnit)
    (h : late = r.countLateResult) : r.countTracked (st.clipCounts start) false =
      if start < st.lastCut ∧ st.nose < st.lastCut then late else r := by
  simp only [ReportUnit.countTracked, Strand.clipCounts, Bool.and_eq_true, decide_eq_true_eq, Bool.false_eq_true, if_false, h]

/-- Settles O38: a late open event, the table entries it makes or updates, and an update event. -/
theorem zoneOpenAndUpdateEvents : Obligations.ZoneOpenAndUpdateEvents := by
  unfold Obligations.ZoneOpenAndUpdateEvents
  refine ⟨fun s e st late hpowered hoffers hst hlate => ?_, fun s e st hpowered hoffers hst => ?_⟩
  · subst hst
    rw [exec_zoneOpenEvent hpowered hoffers]
    refine ⟨fun hdiscarded => ?_, fun hactive hbelow => ?_⟩
    · rw [Strand.openZone_late hdiscarded, hlate]
      exact congrArg _ (s.received.withTracked_tooLate_self e.strand)
    · rw [Strand.openZone_of_taken hactive hbelow]
      refine ⟨fun sides worst hfinding => ⟨fun o ho => ?_, fun hnone => ?_⟩, fun hfinding => ⟨fun hsome => ?_, fun hnone => ?_⟩⟩
      · simp only [hfinding]
        rw [ho]
        simp only [OpenDimension.update, joinSides_eq]
        rfl
      · simp only [hfinding]
        rw [hnone, nextZoneNumber_eq, ← ReportUnit.countTracked_clip _ _ _ hlate]
        rfl
      · obtain ⟨o, ho⟩ := Option.isSome_iff_exists.mp hsome
        simp only [hfinding]
        rw [ho]
        exact congrArg _ (s.received.withTracked_quiet_self e.strand)
      · simp only [hfinding]
        rw [hnone, nextZoneNumber_eq, ← ReportUnit.countTracked_clip _ _ _ hlate]
        rfl
  · subst hst
    rw [exec_zoneUpdateEvent hpowered hoffers]
    refine ⟨fun hignored => ?_, fun o hactive ho => ?_⟩
    · have hsame : s.tracker.strands[e.strand].updateZone e = s.tracker.strands[e.strand] := by
        unfold Strand.updateZone
        split
        · next o hactive ho =>
          obtain h | h := hignored
          · rw [hactive] at h
            cases h
          · rw [ho] at h
            cases h
        · rfl
      rw [hsame]
      exact congrArg _ (s.received.withStrand_self e.strand)
    · simp only [Strand.updateZone, hactive]
      rw [ho]
      simp only [OpenDimension.update, joinSides_sideAsSides]
      rfl

end Sys2Proof.Machine
end

section
/-! A close event and the closed-zone list: which zones merge, where one is inserted, what a joined pair becomes, and which pair a
coarsening joins (R105 to R108). -/

namespace Sys2Proof.Machine

/-! ### Joins -/

theorem higherSeverity_rank {rank : Severity → Nat} (hminor : rank .minor = 0) (hmajor : rank .major = 1) (hcutout : rank .cutout = 2)
    (a b : Severity) : rank (higherSeverity a b) = max (rank a) (rank b) := by
  cases a <;> cases b <;> simp [higherSeverity, hminor, hmajor, hcutout]

theorem greaterWorst_none_left (b : Option Worst) : greaterWorst none b = b := by cases b <;> rfl

theorem greaterWorst_none_right (a : Option Worst) : greaterWorst a none = a := by cases a <;> rfl

theorem greaterWorst_some (v w : Worst) : greaterWorst (some v) (some w) = some (if v.excess < w.excess then w else v) := by
  rw [apply_ite some]
  rfl

theorem higherBillet_none_left (b : Option Nat) : higherBillet none b = b := by cases b <;> rfl

theorem higherBillet_none_right (a : Option Nat) : higherBillet a none = a := by cases a <;> rfl

theorem combinedSides_none_left (b : Option Sides) : combinedSides none b = b := by cases b <;> rfl

theorem combinedSides_none_right (a : Option Sides) : combinedSides a none = a := by cases a <;> rfl

theorem combinedSides_some (x y : Sides) : combinedSides (some x) (some y) = some (if x = y then x else .both) :=
  congrArg some (joinSides_eq x y)

theorem mergesWith_iff (gap : Nat) (z y : ClosedZone) : mergesWith gap z y = true ↔
    y.cls = z.cls ∧ y.feature = z.feature ∧ max y.start z.start - min y.finish z.finish ≤ (gap : Int) := by
  simp only [mergesWith, Bool.and_eq_true, beq_iff_eq, decide_eq_true_eq, and_assoc]

/-- The class and the feature of a join: those of both zones where they are the same, MERGED and none otherwise (R108). -/
theorem joinZones_of_same {a b : ClosedZone} (hcls : a.cls = b.cls) (hfeature : a.feature = b.feature) :
    (joinZones a b).cls = a.cls ∧ (joinZones a b).feature = a.feature := by
  have hsame : (a.cls == b.cls && a.feature == b.feature) = true := by simp [hcls, hfeature]
  exact ⟨if_pos hsame, if_pos hsame⟩

theorem joinZones_of_other {a b : ClosedZone} (h : a.cls ≠ b.cls ∨ a.feature ≠ b.feature) :
    (joinZones a b).cls = .merged ∧ (joinZones a b).feature = none := by
  have hother : ¬ (a.cls == b.cls && a.feature == b.feature) = true := by
    rw [Bool.and_eq_true, beq_iff_eq, beq_iff_eq]
    rintro ⟨hcls, hfeature⟩
    obtain h | h := h
    · exact h hcls
    · exact h hfeature
  exact ⟨if_neg hother, if_neg hother⟩

/-- The sides of a join are kept for a DIMENSION zone alone (R108). -/
theorem joinZones_sides (a b : ClosedZone) : (joinZones a b).sides =
    if (joinZones a b).cls = .dimension then combinedSides a.sides b.sides else none := by
  simp only [joinZones, beq_iff_eq]

theorem joinZones_fields {a b j : ClosedZone} (hj : j = joinZones a b) :
    j.number = a.number ∧ j.start = min a.start b.start ∧ j.finish = max a.finish b.finish
    ∧ (a.cls = b.cls → a.feature = b.feature → j.cls = a.cls ∧ j.feature = a.feature)
    ∧ (a.cls ≠ b.cls ∨ a.feature ≠ b.feature → j.cls = .merged ∧ j.feature = none)
    ∧ (∀ rank : Severity → Nat, rank .minor = 0 → rank .major = 1 → rank .cutout = 2 →
        rank j.severity = max (rank a.severity) (rank b.severity))
    ∧ j.sources = { dimension := a.sources.dimension || b.sources.dimension, blind := a.sources.blind || b.sources.blind,
                    weld := a.sources.weld || b.sources.weld, stop := a.sources.stop || b.sources.stop }
    ∧ (a.worst = none → j.worst = b.worst) ∧ (b.worst = none → j.worst = a.worst)
    ∧ (∀ v w, a.worst = some v → b.worst = some w → j.worst = some (if v.excess < w.excess then w else v))
    ∧ (a.billet = none → j.billet = b.billet) ∧ (b.billet = none → j.billet = a.billet)
    ∧ (∀ m n, a.billet = some m → b.billet = some n → j.billet = some (max m n))
    ∧ (j.cls ≠ .dimension → j.sides = none)
    ∧ (j.cls = .dimension → (a.sides = none → j.sides = b.sides) ∧ (b.sides = none → j.sides = a.sides)
        ∧ ∀ x y, a.sides = some x → b.sides = some y → j.sides = some (if x = y then x else .both)) := by
  have hworst : (joinZones a b).worst = greaterWorst a.worst b.worst := rfl
  have hbillet : (joinZones a b).billet = higherBillet a.billet b.billet := rfl
  subst hj
  refine ⟨rfl, rfl, rfl, joinZones_of_same, joinZones_of_other, fun rank h0 h1 h2 => higherSeverity_rank h0 h1 h2 _ _, rfl,
    fun h => ?_, fun h => ?_, fun v w hv hw => ?_, fun h => ?_, fun h => ?_, fun m n hm hn => ?_, fun h => ?_, fun h => ⟨fun hx => ?_,
    fun hy => ?_, fun x y hx hy => ?_⟩⟩
  · rw [hworst, h, greaterWorst_none_left]
  · rw [hworst, h, greaterWorst_none_right]
  · rw [hworst, hv, hw, greaterWorst_some]
  · rw [hbillet, h, higherBillet_none_left]
  · rw [hbillet, h, higherBillet_none_right]
  · rw [hbillet, hm, hn]
    rfl
  · rw [joinZones_sides, if_neg h]
  · rw [joinZones_sides, if_pos h, hx, combinedSides_none_left]
  · rw [joinZones_sides, if_pos h, hy, combinedSides_none_right]
  · rw [joinZones_sides, if_pos h, hx, hy, combinedSides_some]

/-! ### Insertion and coarsening -/

/-- A zone goes after every entry that starts at or below it (R106). -/
theorem insertZone_between {z : ClosedZone} {before after : List ClosedZone} (hbefore : ∀ y ∈ before, y.start ≤ z.start)
    (hafter : ∀ y ∈ after.head?, z.start < y.start) : insertZone z (before ++ after) = before ++ z :: after := by
  induction before with
  | nil =>
    cases after with
    | nil => rfl
    | cons y rest => exact if_neg (Std.not_le.mpr (hafter y rfl))
  | cons y rest ih =>
    rw [List.cons_append, insertZone, if_pos (hbefore y (List.mem_cons_self ..)),
      ih fun x hx => hbefore x (List.mem_cons_of_mem _ hx)]
    rfl

/-- A coarsening joins the earliest of the pairs with the smallest gap (R108). -/
theorem coarsen_earliest {before after : List ClosedZone} {a b : ClosedZone}
    (h : ∀ pre post y z, before ++ a :: b :: after = pre ++ y :: z :: post →
      b.start - a.finish ≤ z.start - y.finish ∧ (z.start - y.finish = b.start - a.finish → before.length ≤ pre.length)) :
    coarsen (before ++ a :: b :: after) = before ++ joinZones a b :: after := by
  obtain ⟨g, hg, hle⟩ := smallestGap_le before after a b
  have hgap : gapOf a b = g := by
    obtain ⟨pre, y, z, post, hsplit, hyz⟩ := smallestGap_mem _ g hg
    exact Std.le_antisymm (hyz ▸ (h pre post y z hsplit).1) hle
  rw [coarsen, hg]
  exact joinAt_first g before after a b hgap fun pre post y z hsplit hyz => (h pre post y z hsplit).2 (hyz.trans hgap.symm)

/-! ### The close event -/

theorem Strand.closeZone_inactive {st : Strand} (c : Card) (e : ZoneClose) (h : st.active = false) : st.closeZone c e = st.quiet :=
  if_pos (by rw [h]; rfl)

/-- A close event of an active strand, by its kind (R105). -/
theorem Strand.closeZone_dimension {st : Strand} (c : Card) {e : ZoneClose} (h : st.active = true) (hkind : e.kind = .dimension) :
    (st.dimensions[e.feature] = none → st.closeZone c e = st.quiet)
    ∧ ∀ o, st.dimensions[e.feature] = some o → st.closeZone c e =
        Strand.endZone c (o.zone c e.feature e.finish) { st with dimensions := setAt st.dimensions e.feature none } := by
  refine ⟨fun hnone => ?_, fun o ho => ?_⟩
  · rw [Strand.closeZone, if_neg (by rw [h]; decide), hkind]
    simp only
    rw [hnone]
  · rw [Strand.closeZone, if_neg (by rw [h]; decide), hkind]
    simp only
    rw [ho]

theorem Strand.closeZone_blind {st : Strand} (c : Card) {e : ZoneClose} (h : st.active = true) (hkind : e.kind = .blind) :
    (st.blinds[e.feature] = none → st.closeZone c e = st.quiet)
    ∧ ∀ o, st.blinds[e.feature] = some o → st.closeZone c e =
        Strand.endZone c (o.zone c e.feature e.finish) { st with blinds := setAt st.blinds e.feature none } := by
  refine ⟨fun hnone => ?_, fun o ho => ?_⟩
  · rw [Strand.closeZone, if_neg (by rw [h]; decide), hkind]
    simp only
    rw [hnone]
  · rw [Strand.closeZone, if_neg (by rw [h]; decide), hkind]
    simp only
    rw [ho]

theorem Strand.mergeZone_of_none {st : Strand} {gap : Nat} {z : ClosedZone} (h : st.closed.filter (mergesWith gap z) = []) :
    st.mergeZone gap z = st.addZone z := by
  rw [Strand.mergeZone, h]

theorem Strand.mergeZone_of_some {st : Strand} {gap : Nat} {z y : ClosedZone} {ys : List ClosedZone}
    (h : st.closed.filter (mergesWith gap z) = y :: ys) : st.mergeZone gap z =
      Strand.quiet { st with
        closed := insertZone ((ys ++ [z]).foldl joinZones y) (st.closed.filter fun y => !mergesWith gap z y) } := by
  rw [Strand.mergeZone, h]

/-- The zone that a close event ends, and the strand without its entry (R105). -/
theorem Strand.closeZone_ends {st left : Strand} {c : Card} {e : ZoneClose} {z : ClosedZone} (hactive : st.active = true)
    (hcase : (∃ o f, e.kind = .dimension ∧ st.dimensions[e.feature] = some o ∧ c.features[e.feature] = some f
          ∧ left = { st with dimensions := setAt st.dimensions e.feature none }
          ∧ z = { number := o.number, cls := .dimension, feature := some e.feature, severity := f.limits.severity.severity,
                  start := o.start, finish := e.finish, sides := some o.sides, worst := some o.worst, billet := none,
                  sources := { dimension := true, blind := false, weld := false, stop := false } })
        ∨ (∃ o, e.kind = .blind ∧ st.blinds[e.feature] = some o ∧ left = { st with blinds := setAt st.blinds e.feature none }
          ∧ z = { number := o.number, cls := .blind, feature := some e.feature,
                  severity := c.line.blindSeverity.severity, start := o.start, finish := e.finish, sides := none,
                  worst := none, billet := none,
                  sources := { dimension := false, blind := true, weld := false, stop := false } })) :
    st.closeZone c e = left.endZone c z ∧ left.closed = st.closed := by
  obtain ⟨o, f, hkind, ho, hf, rfl, rfl⟩ | ⟨o, hkind, ho, rfl, rfl⟩ := hcase
  · refine ⟨?_, rfl⟩
    rw [(Strand.closeZone_dimension c hactive hkind).2 o ho, OpenDimension.zone, dimensionSeverity, hf]
    rfl
  · refine ⟨?_, rfl⟩
    rw [(Strand.closeZone_blind c hactive hkind).2 o ho]
    rfl

/-- Settles O39: the rules of the list, and a close event by what it finds. -/
theorem zoneCloseEventClosesTheZone : Obligations.ZoneCloseEventClosesTheZone := by
  unfold Obligations.ZoneCloseEventClosesTheZone
  refine ⟨mergesWith_iff, fun z before after hbefore hafter => insertZone_between hbefore hafter, fun a b j hj => joinZones_fields hj,
    fun before after a b h => coarsen_earliest h, fun s e st left start z hpowered hoffers hst => ?_⟩
  subst hst
  rw [exec_zoneCloseEvent hpowered hoffers]
  have hquiet (h : s.tracker.strands[e.strand].closeZone s.store.card e = s.tracker.strands[e.strand].quiet) :
      s.received.withTracked e.strand (s.tracker.strands[e.strand].closeZone s.store.card e) = s.received := by
    rw [h]
    exact s.received.withTracked_quiet_self e.strand
  refine ⟨fun hinactive => ?_, fun hkind hnone => ?_, fun hkind hnone => ?_, fun hactive hstart hfinish hcase => ?_⟩
  · rw [hquiet (Strand.closeZone_inactive _ e hinactive)]
  · by_cases hactive : s.tracker.strands[e.strand].active = true
    · rw [hquiet ((Strand.closeZone_dimension _ hactive hkind).1 hnone)]
    · rw [hquiet (Strand.closeZone_inactive _ e (Bool.eq_false_iff.mpr hactive))]
  · by_cases hactive : s.tracker.strands[e.strand].active = true
    · rw [hquiet ((Strand.closeZone_blind _ hactive hkind).1 hnone)]
    · rw [hquiet (Strand.closeZone_inactive _ e (Bool.eq_false_iff.mpr hactive))]
  · obtain ⟨hends, hclosed⟩ := Strand.closeZone_ends hactive hcase
    subst hstart
    rw [hends, Strand.endZone, hfinish, ← hclosed]
    refine ⟨fun hdropped => ?_, fun hends => ?_⟩
    · rw [if_pos hdropped]
      rfl
    · rw [if_neg (Std.not_le.mpr hends)]
      refine ⟨fun y ys hmerge => ?_, fun hnone hroom => ?_, fun hnone hfull => ?_⟩
      · rw [Strand.mergeZone_of_some hmerge]
        rfl
      · rw [Strand.mergeZone_of_none hnone, addZone_of_room hroom]
        rfl
      · refine ⟨_, ?_, rfl, ?_⟩
        · have := coarsen_length (zs := insertZone z left.closed) (by rw [insertZone_length]; omega)
          rw [insertZone_length] at this
          omega
        · rw [Strand.mergeZone_of_none hnone, addZone_of_full (Nat.le_of_eq hfull.symm)]
          rfl

end Sys2Proof.Machine
end

section
/-! The lengths that a cut forms, strand by strand, and the strands that end with it (R31, R93, R101, R115 to R118, R121, R132). -/

namespace Sys2Proof.Machine

/-! ### A pass over the strands -/

/-- What a pass over the strands makes of each: the strand, its last verdict, and the record it forms, if any. -/
structure StrandPass where
  strand : Fin 4 → Strand
  last   : Fin 4 → Option Verdict
  forms  : Fin 4 → Bool
  record : Fin 4 → LengthRecord

/-- The records of a list of strands handed to the report unit, in order (R121). -/
def StrandPass.reported (o : StrandPass) (done : List (Fin 4)) (u : ReportUnit) : ReportUnit :=
  (done.filter o.forms).foldl (fun u i => u.take (o.record i)) u

/-- The state reached when the pass has gone over the strands of a list, the press and the card store apart. -/
structure StrandPass.Reaches (o : StrandPass) (s : State) (done : List (Fin 4)) (t : State) : Prop where
  strands : ∀ i, t.tracker.strands[(i : Fin 4)] = if i ∈ done then o.strand i else s.tracker.strands[i]
  last    : ∀ i, t.verdict.last[(i : Fin 4)] = if i ∈ done then o.last i else s.verdict.last[i]
  report  : t.report = o.reported done s.report
  frame   : t = { s with
    tracker := { s.tracker with press := t.tracker.press, strands := t.tracker.strands },
    verdict := { s.verdict with last := t.verdict.last }, report := t.report, store := t.store }

theorem StrandPass.Reaches.start (o : StrandPass) (s : State) : o.Reaches s [] s :=
  ⟨fun _ => rfl, fun _ => rfl, rfl, rfl⟩

/-- The pass goes over one more strand. -/
theorem StrandPass.Reaches.next {o : StrandPass} {s t u : State} {done : List (Fin 4)} {i : Fin 4} (h : o.Reaches s done t)
    (hstrands : u.tracker.strands = setAt t.tracker.strands i (o.strand i)) (hlast : u.verdict.last = setAt t.verdict.last i (o.last i))
    (hreport : u.report = if o.forms i then t.report.take (o.record i) else t.report)
    (hframe : u = { t with
      tracker := { t.tracker with press := u.tracker.press, strands := u.tracker.strands },
      verdict := { t.verdict with last := u.verdict.last }, report := u.report, store := u.store }) :
    o.Reaches s (done ++ [i]) u := by
  refine ⟨fun j => ?_, fun j => ?_, ?_, ?_⟩
  · rw [hstrands, setAt_get, h.strands]
    by_cases hji : j = i <;> simp [hji]
  · rw [hlast, setAt_get, h.last]
    by_cases hji : j = i <;> simp [hji]
  · rw [hreport, h.report]
    cases hforms : o.forms i <;> simp [StrandPass.reported, List.filter_append, hforms]
  · rw [hframe, h.frame]

/-- A strand that the pass has not gone over stands as it stood. -/
theorem StrandPass.Reaches.ahead {o : StrandPass} {s t : State} {done : List (Fin 4)} (h : o.Reaches s done t) {i : Fin 4} (hi : i ∉ done) :
    t.tracker.strands[i] = s.tracker.strands[i] ∧ t.verdict.last[i] = s.verdict.last[i] := by
  rw [h.strands, h.last, if_neg hi, if_neg hi]
  exact ⟨rfl, rfl⟩

theorem StrandPass.Reaches.kept {o : StrandPass} {s t : State} {done : List (Fin 4)} (h : o.Reaches s done t) :
    t.thermal = s.thermal ∧ t.verdict.failsafe = s.verdict.failsafe ∧ t.scan = s.scan ∧ t.engine = s.engine ∧ t.link = s.link
      ∧ t.runout = s.runout := by
  rw [h.frame]
  exact ⟨rfl, rfl, rfl, rfl, rfl, rfl⟩

/-- What the pass leaves when it has gone over every strand. -/
theorem StrandPass.Reaches.all {o : StrandPass} {s t : State} (h : o.Reaches s strandsInOrder t) (i : Fin 4) :
    t.tracker.strands[i] = o.strand i ∧ t.verdict.last[i] = o.last i := by
  rw [h.strands, h.last, if_pos (mem_strandsInOrder i), if_pos (mem_strandsInOrder i)]
  exact ⟨rfl, rfl⟩

/-- What holds at the start of a pass and is kept by each step holds at its end. -/
theorem foldl_pass {P : List (Fin 4) → State → Prop} {f : State → Fin 4 → State}
    (hstep : ∀ done t i, i ∉ done → P done t → P (done ++ [i]) (f t i)) (todo done : List (Fin 4)) (t : State)
    (hnodup : (done ++ todo).Nodup) (h : P done t) : P (done ++ todo) (todo.foldl f t) := by
  induction todo generalizing done t with
  | nil => simpa using h
  | cons i todo ih =>
    have hi : i ∉ done := fun hmem => (List.nodup_append.mp hnodup).2.2 i hmem i (List.mem_cons_self ..) rfl
    have := ih (done ++ [i]) (f t i) (by simpa using hnodup) (hstep done t i hi h)
    simpa using this

/-- What each step of a pass over all strands keeps holds at its end. -/
theorem foldl_strands {P : List (Fin 4) → State → Prop} {f : State → Fin 4 → State} {s : State} (h : P [] s)
    (hstep : ∀ done t i, i ∉ done → P done t → P (done ++ [i]) (f t i)) : P strandsInOrder (strandsInOrder.foldl f s) :=
  foldl_pass hstep strandsInOrder [] s (by decide) h

/-! ### A cut on one strand -/

theorem Strand.takesCut_iff (st : Strand) (c : Int) :
    st.takesCut c = true ↔ (st.state = .running ∨ st.state = .tailing) ∧ st.lastCut < c := by
  simp only [Strand.takesCut, Bool.and_eq_true, Bool.or_eq_true, beq_iff_eq, decide_eq_true_eq]

theorem cutUpper_running {st : Strand} (c : Int) (h : st.state = .running) : cutUpper st c = c := by
  rw [cutUpper, if_neg]
  rw [h]
  decide

theorem cutUpper_tailing {st : Strand} {tail : Int} (c : Int) (h : st.state = .tailing) (ht : st.tail = some tail) :
    cutUpper st c = min tail c := by
  rw [cutUpper, if_pos h, finalUpper, ht]

theorem cutUpper_tailless {st : Strand} (c : Int) (h : st.state = .tailing) (ht : st.tail = none) : cutUpper st c = c := by
  rw [cutUpper, if_pos h, finalUpper, ht]

theorem Strand.formsLength_iff (st : Strand) (c : Int) : st.formsLength c = true ↔
    (st.state = .running ∨ st.state = .tailing ∧ ∀ tail, st.tail = some tail → st.lastCut < tail) ∧ st.lastCut < c := by
  rw [Strand.formsLength, Bool.and_eq_true, Strand.takesCut_iff, decide_eq_true_eq]
  by_cases hrunning : st.state = .running
  · simp [hrunning, cutUpper_running c hrunning]
  · by_cases htailing : st.state = .tailing
    · cases htail : st.tail with
      | none => simp [htailing, cutUpper_tailless c htailing htail]
      | some tail =>
        simp only [htailing, cutUpper_tailing c htailing htail, Option.some.injEq, forall_eq', or_true, true_and, Int.lt_min]
        simp only [reduceCtorEq, false_or]
        constructor
        · rintro ⟨hc, ht, -⟩
          exact ⟨ht, hc⟩
        · rintro ⟨ht, hc⟩
          exact ⟨hc, ht, hc⟩
    · simp [hrunning, htailing]

/-- What a cut makes of the strands that it finds (R115). -/
def cutPass (s : State) (c : Int) : StrandPass where
  strand i :=
    let st := s.tracker.strands[i]
    let formed := if st.formsLength c then st.advance s.store.card (cutUpper st c) else st
    if st.takesCut c && st.tailReached c then formed.ended else formed
  last i :=
    if s.tracker.strands[i].formsLength c then
      some (lengthRecord s.store.card s.store.digest s.thermal[i] s.verdict.failsafe .cut i s.tracker.strands[i]
        (cutUpper s.tracker.strands[i] c)).verdict
    else s.verdict.last[i]
  forms i := s.tracker.strands[i].formsLength c
  record i := lengthRecord s.store.card s.store.digest s.thermal[i] s.verdict.failsafe .cut i s.tracker.strands[i]
    (cutUpper s.tracker.strands[i] c)

/-- Where the last active strand has ended, the press has returned to IDLE and the pending limits are applied; until then neither
has moved (R93, R101). -/
def PressFollows (s t : State) : Prop :=
  (t.tracker.press = s.tracker.press ∧ t.store = s.store
      ∧ ((∃ i, s.tracker.strands[(i : Fin 4)].active = true) → ∃ i, t.tracker.strands[(i : Fin 4)].active = true))
    ∨ (t.tracker.press = .idle ∧ t.store = s.store.applyPending ∧ ∀ i, t.tracker.strands[(i : Fin 4)].active = false)

/-- The length of a strand formed, where the cut forms one. -/
def State.cutFormed (c : Int) (s : State) (i : Fin 4) : State :=
  if s.tracker.strands[i].formsLength c then s.formLength .cut i (cutUpper s.tracker.strands[i] c) else s

theorem State.cutStrand_eq (c : Int) (s : State) (i : Fin 4) : s.cutStrand c i =
    if s.tracker.strands[i].takesCut c then
      if s.tracker.strands[i].tailReached c then (s.cutFormed c i).endStrand i else s.cutFormed c i
    else s := rfl

/-- The strand, the verdict and the report after a length that the cut may form. -/
theorem State.cutFormed_eq (c : Int) (s : State) (i : Fin 4) : s.cutFormed c i = { s with
    tracker := { s.tracker with strands := setAt s.tracker.strands i (if s.tracker.strands[i].formsLength c then
      s.tracker.strands[i].advance s.store.card (cutUpper s.tracker.strands[i] c) else s.tracker.strands[i]) },
    verdict := { s.verdict with last := setAt s.verdict.last i ((cutPass s c).last i) },
    report := if s.tracker.strands[i].formsLength c then s.report.take ((cutPass s c).record i) else s.report } := by
  by_cases h : s.tracker.strands[i].formsLength c = true
  · simp only [State.cutFormed, cutPass, h, if_true]
    rfl
  · simp only [State.cutFormed, cutPass, Bool.eq_false_iff.mpr h, Bool.false_eq_true, if_false, setAt_get_self]

/-- The end of a strand (R93), the press and the card store apart. -/
theorem State.endStrand_parts (i : Fin 4) (s : State) :
    (s.endStrand i).tracker.strands = setAt s.tracker.strands i s.tracker.strands[i].ended
    ∧ s.endStrand i = { s with
        tracker := { s.tracker with press := (s.endStrand i).tracker.press, strands := (s.endStrand i).tracker.strands },
        store := (s.endStrand i).store } := by
  simp only [State.endStrand]
  split
  · exact ⟨rfl, rfl⟩
  · exact ⟨rfl, rfl⟩

/-- The press and the card store after the end of a strand: moved where no strand is active any more (R93, R101). -/
theorem State.endStrand_press (i : Fin 4) (s : State) :
    (((s.endStrand i).tracker.press = .idle ∧ (s.endStrand i).store = s.store.applyPending
        ∧ ∀ j, (s.endStrand i).tracker.strands[(j : Fin 4)].active = false))
    ∨ ((s.endStrand i).tracker.press = s.tracker.press ∧ (s.endStrand i).store = s.store
        ∧ ∃ j, (s.endStrand i).tracker.strands[(j : Fin 4)].active = true) := by
  simp only [State.endStrand]
  split
  · next hended => exact .inl ⟨rfl, rfl, (allEnded_iff _).mp hended⟩
  · next hleft =>
    refine .inr ⟨rfl, rfl, Classical.byContradiction fun hnone => ?_⟩
    refine hleft ((allEnded_iff _).mpr fun j => Bool.eq_false_iff.mpr fun hj => hnone ⟨j, hj⟩)

/-- The cut taken by one strand more: what it makes of the strand (R115). -/
theorem cutPass_next {s t : State} {c : Int} {done : List (Fin 4)} {i : Fin 4} (hi : i ∉ done)
    (h : (cutPass s c).Reaches s done t) (hstore : t.store = s.store ∨ t.tracker.strands[i].takesCut c = false) :
    (cutPass s c).Reaches s (done ++ [i]) (t.cutStrand c i) := by
  obtain ⟨hstrand, hlast⟩ := h.ahead hi
  by_cases htakes : t.tracker.strands[i].takesCut c = true
  · have hstore' : t.store = s.store := hstore.resolve_right (by rw [htakes]; decide)
    have hrecord : (cutPass t c).record i = (cutPass s c).record i := by
      simp only [cutPass, hstrand, hstore', h.kept.1, h.kept.2.1]
    have hlast' : (cutPass t c).last i = (cutPass s c).last i := by
      simp only [cutPass, hstrand, hstore', h.kept.1, h.kept.2.1, hlast]
    have hformed := State.cutFormed_eq c t i
    rw [State.cutStrand_eq, if_pos htakes]
    by_cases htail : t.tracker.strands[i].tailReached c = true
    · rw [if_pos htail]
      obtain ⟨hends, hframe⟩ := State.endStrand_parts i (t.cutFormed c i)
      refine h.next ?_ ?_ ?_ ?_
      · rw [hends, hformed]
        simp only [setAt_setAt, setAt_self]
        simp only [cutPass, ← hstrand, htakes, htail, hstore']
        rfl
      · rw [hframe, hformed, ← hlast']
      · rw [hframe, hformed, ← hrecord, hstrand]
        rfl
      · rw [hframe, hformed]
    · rw [if_neg htail]
      refine h.next ?_ ?_ ?_ ?_
      · rw [hformed]
        simp only [cutPass, ← hstrand, htakes, htail, hstore']
        rfl
      · rw [hformed, ← hlast']
      · rw [hformed, ← hrecord, hstrand]
        rfl
      · rw [hformed]
  · have hforms : t.tracker.strands[i].formsLength c = false := by
      rw [Strand.formsLength, Bool.eq_false_iff.mpr htakes, Bool.false_and]
    rw [State.cutStrand_eq, if_neg htakes]
    refine h.next ?_ ?_ ?_ rfl
    · have : (cutPass s c).strand i = t.tracker.strands[i] := by
        simp only [cutPass, ← hstrand, hforms, Bool.eq_false_iff.mpr htakes, Bool.false_and, Bool.false_eq_true, if_false]
      rw [this, setAt_get_self]
    · have : (cutPass s c).last i = t.verdict.last[i] := by
        simp only [cutPass, ← hstrand, hforms, Bool.false_eq_true, if_false, hlast]
      rw [this, setAt_get_self]
    · have : (cutPass s c).forms i = false := by rw [← hforms, hstrand]; rfl
      rw [this, if_neg Bool.false_ne_true]

theorem PressFollows.start (s : State) : PressFollows s s := .inl ⟨rfl, rfl, id⟩

/-- The cut taken by one strand more: what it makes of the press and the card store (R93, R101). -/
theorem PressFollows.cutStrand {s t : State} (c : Int) (i : Fin 4) (h : PressFollows s t) : PressFollows s (t.cutStrand c i) := by
  by_cases htakes : t.tracker.strands[i].takesCut c = true
  · have hactive := active_of_takesCut htakes
    obtain ⟨hpress, hstore, hsome⟩ | ⟨-, -, hnone⟩ := h
    · have hformed := State.cutFormed_eq c t i
      have hpress' : (t.cutFormed c i).tracker.press = s.tracker.press := by rw [hformed, ← hpress]
      have hstore' : (t.cutFormed c i).store = s.store := by rw [hformed, ← hstore]
      rw [State.cutStrand_eq, if_pos htakes]
      split
      · obtain ⟨hidle, hpending, hends⟩ | ⟨hsame, hkept, hleft⟩ := State.endStrand_press i (t.cutFormed c i)
        · exact .inr ⟨hidle, by rw [hpending, hstore'], hends⟩
        · exact .inl ⟨hsame.trans hpress', hkept.trans hstore', fun _ => hleft⟩
      · refine .inl ⟨hpress', hstore', fun _ => ⟨i, ?_⟩⟩
        rw [hformed]
        simp only [setAt_self]
        split
        · exact (active_advance _ _ _).trans hactive
        · exact hactive
    · rw [hnone i] at hactive
      cases hactive
  · rw [State.cutStrand_eq, if_neg htakes]
    exact h

/-- A cut taken on every strand (R115). -/
theorem State.cutStrands_reaches (c : Int) (s : State) :
    (cutPass s c).Reaches s strandsInOrder (s.cutStrands c) ∧ PressFollows s (s.cutStrands c) := by
  refine foldl_strands (P := fun done t => (cutPass s c).Reaches s done t ∧ PressFollows s t)
    ⟨StrandPass.Reaches.start _ s, .start s⟩ fun done t i hi ⟨hreaches, hpress⟩ => ⟨cutPass_next hi hreaches ?_, hpress.cutStrand c i⟩
  obtain ⟨-, hstore, -⟩ | ⟨-, -, hnone⟩ := hpress
  · exact .inl hstore
  · refine .inr (Bool.eq_false_iff.mpr fun htakes => ?_)
    have := active_of_takesCut htakes
    rw [hnone i] at this
    cases this

/-- A cut that no strand takes changes nothing. -/
theorem State.cutStrands_of_none {c : Int} {s : State} (h : ∀ i, s.tracker.strands[(i : Fin 4)].takesCut c = false) :
    s.cutStrands c = s := by
  have hstep (i : Fin 4) : s.cutStrand c i = s := by
    rw [State.cutStrand_eq, if_neg (by rw [h i]; decide)]
  simp only [State.cutStrands, List.foldl_cons, List.foldl_nil, hstep]

end Sys2Proof.Machine
end

section
/-! TAKE_CUT: the lengths formed, the strands that end, and what is left of the pending limits (R31, R115 to R118, R121, R132). -/

namespace Sys2Proof.Machine

/-! ### The pending limits -/

theorem CardStore.nonePending_iff (x : CardStore) : x.nonePending = true ↔ ∀ f, x.pendingLimits[(f : Fin 32)] = none := by
  simp only [CardStore.nonePending, List.all_eq_true, Option.isNone_iff_eq_none]
  constructor
  · exact fun h f => h _ (by simp)
  · intro h l hl
    obtain ⟨f, hf, rfl⟩ := List.getElem_of_mem hl
    exact h ⟨f, by simpa using hf⟩

theorem CardStore.applyPending_of_none {x : CardStore} (h : ∀ f, x.pendingLimits[(f : Fin 32)] = none) : x.applyPending = x :=
  if_pos (x.nonePending_iff.mpr h)

theorem CardStore.applyPending_applyPending (x : CardStore) : x.applyPending.applyPending = x.applyPending :=
  applyPending_of_none x.applyPending_empty

theorem CardStore.applyPending_of_some {x : CardStore} {c : Card} (h : ∃ f, x.pendingLimits[(f : Fin 32)] ≠ none)
    (hc : c = { x.card with features := limitedFeatures x.card.features x.pendingLimits }) :
    x.applyPending = { x with card := c, digest := digestOf c, pendingLimits := Vector.replicate 32 none } := by
  obtain ⟨f, hf⟩ := h
  rw [CardStore.applyPending, if_neg fun hnone => hf (x.nonePending_iff.mp hnone f), hc, CardStore.edit, CardStore.dropPending]

/-! ### The strand and the report unit after a length -/

theorem Strand.advance_eq (c : Card) (d : Word32) (th : ThermalRecord) (fs : Failsafe) (o : Origin) (i : Fin 4) (upper : Int) (st : Strand) :
    st.advance c upper = { st with
      lastCut := upper, lengthIndex := min 65535 (st.lengthIndex + 1),
      lowerBillet := (lengthRecord c d th fs o i st upper).lastBillet, tempSum := 0, scanCount := 0, fallbackMark := false,
      extremes := Vector.replicate 32 { least := none, greatest := none, missing := 0 }, cutLost := false,
      dimensions := Vector.ofFn fun f => st.dimensions[f].map fun o => { o with start := max o.start upper },
      blinds := Vector.ofFn fun f => st.blinds[f].map fun o => { o with start := max o.start upper },
      closed := (st.closed.filter fun z => decide (upper < z.finish ∨ upper ≤ z.start)).map fun z =>
        { z with start := max z.start upper } } := by
  rw [← trimClosed_eq]
  rfl

theorem ReportUnit.take_of_room {u : ReportUnit} (r : LengthRecord) (h : u.queue.length < 64) : u.take r = { u with
    queue := u.queue ++ [{ r with sequence := u.nextSequence }], nextSequence := (u.nextSequence + 1) % 65536 } := if_pos h

theorem ReportUnit.take_of_full {u : ReportUnit} (r : LengthRecord) (h : 64 ≤ u.queue.length) : u.take r = { u with
    tally := { lengths := min 4294967295 (u.tally.lengths + 1),
               rejects := min 4294967295 (u.tally.rejects + (if r.verdict = .reject then 1 else 0)),
               millis := min 4294967295 (u.tally.millis + r.hot.toNat) },
    flags := u.flags ||| 16#11 } := if_neg (Nat.not_lt.mpr h)

/-! ### What a cut makes of one strand -/

theorem Strand.tailReached_iff (st : Strand) (c : Int) :
    st.tailReached c = true ↔ st.state = .tailing ∧ ∃ tail, st.tail = some tail ∧ tail ≤ c := by
  unfold Strand.tailReached
  split
  · next tail ht => simp [ht]
  · next ht => simp [ht]

theorem cutPass_of_not_taken {s : State} {c : Int} {i : Fin 4} (h : s.tracker.strands[i].takesCut c = false) :
    (cutPass s c).strand i = s.tracker.strands[i] ∧ (cutPass s c).last i = s.verdict.last[i] := by
  have hforms : s.tracker.strands[i].formsLength c = false := by rw [Strand.formsLength, h, Bool.false_and]
  simp only [cutPass, h, hforms, Bool.false_and, Bool.false_eq_true, if_false, and_self]

/-- A length that leaves the strand in the die (R115). -/
theorem cutPass_of_left {s : State} {c : Int} {i : Fin 4} (hforms : s.tracker.strands[i].formsLength c = true)
    (htail : s.tracker.strands[i].tailReached c = false) (hupper : cutUpper s.tracker.strands[i] c = c) :
    (cutPass s c).strand i = s.tracker.strands[i].advance s.store.card c
      ∧ (cutPass s c).last i = some (lengthRecord s.store.card s.store.digest s.thermal[i] s.verdict.failsafe .cut i
          s.tracker.strands[i] c).verdict := by
  simp only [cutPass, hforms, htail, hupper, Bool.and_false, Bool.false_eq_true, if_false, if_true, and_self]

/-- The last length of a strand whose tail the cut has reached (R93, R115). -/
theorem cutPass_of_ended {s : State} {c tail : Int} {i : Fin 4} (hforms : s.tracker.strands[i].formsLength c = true)
    (htakes : s.tracker.strands[i].takesCut c = true) (htail : s.tracker.strands[i].tailReached c = true)
    (hupper : cutUpper s.tracker.strands[i] c = tail) :
    (cutPass s c).strand i = (s.tracker.strands[i].advance s.store.card tail).ended
      ∧ (cutPass s c).last i = some (lengthRecord s.store.card s.store.digest s.thermal[i] s.verdict.failsafe .cut i
          s.tracker.strands[i] tail).verdict := by
  simp only [cutPass, hforms, htakes, htail, hupper, Bool.and_self, if_true, and_self]

/-- A strand that ends without a length (R93, R115). -/
theorem cutPass_of_ended_bare {s : State} {c : Int} {i : Fin 4} (hforms : s.tracker.strands[i].formsLength c = false)
    (htakes : s.tracker.strands[i].takesCut c = true) (htail : s.tracker.strands[i].tailReached c = true) :
    (cutPass s c).strand i = s.tracker.strands[i].ended ∧ (cutPass s c).last i = s.verdict.last[i] := by
  simp only [cutPass, hforms, htakes, htail, Bool.and_self, if_true, Bool.false_eq_true, if_false, and_self]

theorem cutPass_of_running {s : State} {c : Int} {i : Fin 4} (hstate : s.tracker.strands[i].state = .running)
    (hcut : s.tracker.strands[i].lastCut < c) :
    (cutPass s c).strand i = s.tracker.strands[i].advance s.store.card c
      ∧ (cutPass s c).last i = some (lengthRecord s.store.card s.store.digest s.thermal[i] s.verdict.failsafe .cut i
          s.tracker.strands[i] c).verdict := by
  refine cutPass_of_left ((Strand.formsLength_iff _ c).mpr ⟨.inl hstate, hcut⟩) (Bool.eq_false_iff.mpr fun h => ?_)
    (cutUpper_running c hstate)
  obtain ⟨htailing, -⟩ := (Strand.tailReached_iff _ c).mp h
  rw [hstate] at htailing
  cases htailing

theorem cutPass_of_tailing_left {s : State} {c tail : Int} {i : Fin 4} (hstate : s.tracker.strands[i].state = .tailing)
    (htail : s.tracker.strands[i].tail = some tail) (hcut : s.tracker.strands[i].lastCut < c) (hleft : c < tail) :
    (cutPass s c).strand i = s.tracker.strands[i].advance s.store.card c
      ∧ (cutPass s c).last i = some (lengthRecord s.store.card s.store.digest s.thermal[i] s.verdict.failsafe .cut i
          s.tracker.strands[i] c).verdict := by
  refine cutPass_of_left ((Strand.formsLength_iff _ c).mpr ⟨.inr ⟨hstate, fun t ht => ?_⟩, hcut⟩) (Bool.eq_false_iff.mpr fun h => ?_) ?_
  · rw [htail] at ht
    cases ht
    omega
  · obtain ⟨-, t, ht, hle⟩ := (Strand.tailReached_iff _ c).mp h
    rw [htail] at ht
    cases ht
    omega
  · rw [cutUpper_tailing c hstate htail, Int.min_eq_right (Int.le_of_lt hleft)]

theorem cutPass_of_tailing_reached {s : State} {c tail : Int} {i : Fin 4} (hstate : s.tracker.strands[i].state = .tailing)
    (htail : s.tracker.strands[i].tail = some tail) (hcut : s.tracker.strands[i].lastCut < c) (hreached : tail ≤ c) :
    (s.tracker.strands[i].lastCut < tail →
      (cutPass s c).strand i = (s.tracker.strands[i].advance s.store.card tail).ended
        ∧ (cutPass s c).last i = some (lengthRecord s.store.card s.store.digest s.thermal[i] s.verdict.failsafe .cut i
            s.tracker.strands[i] tail).verdict)
    ∧ (tail ≤ s.tracker.strands[i].lastCut →
      (cutPass s c).strand i = s.tracker.strands[i].ended ∧ (cutPass s c).last i = s.verdict.last[i]) := by
  have htakes : s.tracker.strands[i].takesCut c = true := (Strand.takesCut_iff _ c).mpr ⟨.inr hstate, hcut⟩
  have hends : s.tracker.strands[i].tailReached c = true := (Strand.tailReached_iff _ c).mpr ⟨hstate, tail, htail, hreached⟩
  have hforms : s.tracker.strands[i].formsLength c = true ↔ s.tracker.strands[i].lastCut < tail := by
    rw [Strand.formsLength_iff]
    constructor
    · rintro ⟨hrunning | ⟨-, habove⟩, -⟩
      · rw [hstate] at hrunning
        cases hrunning
      · exact habove tail htail
    · intro habove
      refine ⟨.inr ⟨hstate, fun t ht => ?_⟩, hcut⟩
      rw [htail] at ht
      cases ht
      exact habove
  refine ⟨fun hbelow => cutPass_of_ended (hforms.mpr hbelow) htakes hends ?_, fun habove => cutPass_of_ended_bare ?_ htakes hends⟩
  · rw [cutUpper_tailing c hstate htail, Int.min_eq_left hreached]
  · exact Bool.eq_false_iff.mpr fun h => absurd (hforms.mp h) (Std.not_lt.mpr habove)

/-! ### TAKE_CUT -/

theorem State.takeDueReports_of_zero {s : State} (h : s.tracker.reportsDue = 0) : s.takeDueReports = s :=
  if_neg (by rw [h]; exact Nat.lt_irrefl 0)

theorem Tracker.formsRecord_iff (c : Int) (t : Tracker) : t.formsRecord c = true ↔ ∃ i, t.strands[(i : Fin 4)].formsLength c = true := by
  simp only [Tracker.formsRecord, List.any_eq_true, mem_strandsInOrder, true_and]

/-- A cut taken with no lost-cut report due before it (R31, R115, R132). -/
theorem State.takeCut_eq {s : State} {travel : Nat} {rest : List Nat} {c : Int} (hcuts : s.runout.cuts = travel :: rest)
    (hdue : s.tracker.reportsDue = 0) (hc : c = sawCoordinate s.store.card.line travel) : s.takeCut =
      State.leaveCut rest (if s.tracker.formsRecord c then (s.cutStrands c).applyPending else s.cutStrands c) := by
  rw [State.takeCut_of_cons hcuts hc, State.takeDueReports_of_zero hdue]

/-- The state after a cut, block by block. -/
theorem State.leaveCut_fields (rest : List Nat) (b : Bool) (s : State) : 
    (State.leaveCut rest (if b then s.applyPending else s)).tracker.strands = s.tracker.strands
    ∧ (State.leaveCut rest (if b then s.applyPending else s)).tracker.press = s.tracker.press
    ∧ (State.leaveCut rest (if b then s.applyPending else s)).verdict = s.verdict
    ∧ (State.leaveCut rest (if b then s.applyPending else s)).report = s.report
    ∧ (State.leaveCut rest (if b then s.applyPending else s)).store = (if b then s.store.applyPending else s.store)
    ∧ (State.leaveCut rest (if b then s.applyPending else s)).runout = { s.runout with cuts := rest }
    ∧ (State.leaveCut rest (if b then s.applyPending else s)).scan = s.scan
    ∧ (State.leaveCut rest (if b then s.applyPending else s)).thermal = s.thermal
    ∧ (State.leaveCut rest (if b then s.applyPending else s)).engine = s.engine
    ∧ (State.leaveCut rest (if b then s.applyPending else s)).link = s.link := by
  cases b <;> exact ⟨rfl, rfl, rfl, rfl, rfl, rfl, rfl, rfl, rfl, rfl⟩

/-- Settles O27: the pass of a cut over the strands, the laws of a strand and the report unit after a length, and the pending
limits. -/
theorem takeCutFormsLengths : Obligations.TakeCutFormsLengths := by
  unfold Obligations.TakeCutFormsLengths
  refine ⟨fun s travel rest c hpowered hcuts hdue hc => ?_, fun st c => ⟨Strand.takesCut_iff st c, Strand.formsLength_iff st c,
    cutUpper_running c, fun tail => cutUpper_tailing c⟩, fun st c d th fs o i upper => ⟨Strand.advance_eq c d th fs o i upper st, rfl⟩,
    fun u r => ⟨ReportUnit.take_of_room r, ReportUnit.take_of_full r⟩, fun x => ⟨CardStore.applyPending_of_none,
    fun hsome c hc => CardStore.applyPending_of_some hsome hc⟩⟩
  obtain ⟨hreaches, hpress⟩ := s.cutStrands_reaches c
  obtain ⟨hthermal, hfailsafe, hscan, hengine, hlink, hrunout⟩ := hreaches.kept
  have htake := State.takeCut_eq hcuts hdue (hc.trans rfl)
  obtain ⟨fstrands, fpress, fverdict, freport, fstore, frunout, fscan, fthermal, fengine, flink⟩ :=
    State.leaveCut_fields rest (s.tracker.formsRecord c) (s.cutStrands c)
  rw [← htake] at fstrands fpress fverdict freport fstore frunout fscan fthermal fengine flink
  have hall (i : Fin 4) : s.takeCut.tracker.strands[i] = (cutPass s c).strand i ∧ s.takeCut.verdict.last[i] = (cutPass s c).last i := by
    rw [fstrands, fverdict]
    exact hreaches.all i
  refine ⟨s.takeCut, State.event_powered State.takeCut hpowered, ?_, fun i hnot => ?_, fun i hstate hcut => ?_,
    fun i tail hstate htail hcut hleft => ?_, fun i tail hstate htail hcut hreached => ?_, ?_, fun hforms => ?_, fun hsome hnone => ?_,
    fun hforms hleft => ?_, fun hnone => ?_, fun hleft => ?_, ?_, ?_, ?_, ?_, ?_⟩
  · rw [frunout, hrunout]
  · rw [(hall i).1, (hall i).2]
    exact cutPass_of_not_taken hnot
  · rw [(hall i).1, (hall i).2]
    exact cutPass_of_running hstate hcut
  · rw [(hall i).1, (hall i).2]
    exact cutPass_of_tailing_left hstate htail hcut hleft
  · rw [(hall i).1, (hall i).2]
    exact cutPass_of_tailing_reached hstate htail hcut hreached
  · rw [freport]
    exact hreaches.report
  · rw [fstore, if_pos ((Tracker.formsRecord_iff c _).mpr hforms)]
    obtain ⟨-, hstore, -⟩ | ⟨-, hstore, -⟩ := hpress
    · rw [hstore]
    · rw [hstore, CardStore.applyPending_applyPending]
  · rw [fstrands] at hnone
    obtain ⟨-, -, hkeeps⟩ | ⟨hidle, hstore, -⟩ := hpress
    · obtain ⟨i, hi⟩ := hkeeps hsome
      rw [hnone i] at hi
      cases hi
    · refine ⟨fpress.trans hidle, ?_⟩
      rw [fstore, hstore, CardStore.applyPending_applyPending, ite_self]
  · rw [fstrands] at hleft
    obtain ⟨-, hstore, -⟩ | ⟨-, -, hnone⟩ := hpress
    · rw [fstore, if_neg, hstore]
      rw [Tracker.formsRecord_iff]
      rintro ⟨i, hi⟩
      rw [hforms i] at hi
      cases hi
    · obtain ⟨i, hi⟩ := hleft
      rw [hnone i] at hi
      cases hi
  · have hsame := State.cutStrands_of_none hnone
    rw [hsame] at fstore freport
    refine ⟨?_, freport⟩
    rw [fstore, if_neg]
    rw [Tracker.formsRecord_iff]
    rintro ⟨i, hi⟩
    rw [Strand.formsLength, hnone i] at hi
    cases hi
  · rw [fstrands] at hleft
    obtain ⟨hsame, -, -⟩ | ⟨-, -, hnone⟩ := hpress
    · exact fpress.trans hsame
    · obtain ⟨i, hi⟩ := hleft
      rw [hnone i] at hi
      cases hi
  · exact fscan.trans hscan
  · exact fthermal.trans hthermal
  · exact fengine.trans hengine
  · exact flink.trans hlink
  · rw [fverdict, hfailsafe]

end Sys2Proof.Machine
end

section
/-! The final lengths of RUN_CLOSE and WITHDRAW, and the end of the run (R93, R99 to R101). -/

namespace Sys2Proof.Machine

/-! ### A final length -/

/-- What RUN_CLOSE at head coordinate `h` makes of the strands that it finds (R99). -/
def closePass (s : State) (o : Origin) (h : Int) : StrandPass where
  strand i :=
    let st := s.tracker.strands[i]
    if st.active then (if st.lastCut < finalUpper st h then st.advance s.store.card (finalUpper st h) else st).ended else st
  last i :=
    let st := s.tracker.strands[i]
    if st.active = true ∧ st.lastCut < finalUpper st h then
      some (lengthRecord s.store.card s.store.digest s.thermal[i] s.verdict.failsafe o i st (finalUpper st h)).verdict
    else s.verdict.last[i]
  forms i := s.tracker.strands[i].active && decide (s.tracker.strands[i].lastCut < finalUpper s.tracker.strands[i] h)
  record i := lengthRecord s.store.card s.store.digest s.thermal[i] s.verdict.failsafe o i s.tracker.strands[i]
    (finalUpper s.tracker.strands[i] h)

/-- A final length of an active strand, block by block (R99, R100, R119). -/
theorem State.finalLength_eq {s : State} {i : Fin 4} (o : Origin) (h : Int) (hactive : s.tracker.strands[i].active = true) :
    s.finalLength o i h = { s with
      tracker := { s.tracker with strands := setAt s.tracker.strands i (
        if s.tracker.strands[i].lastCut < finalUpper s.tracker.strands[i] h then
          s.tracker.strands[i].advance s.store.card (finalUpper s.tracker.strands[i] h) else s.tracker.strands[i]) },
      verdict := { s.verdict with last := setAt s.verdict.last i ((closePass s o h).last i) },
      report := if s.tracker.strands[i].lastCut < finalUpper s.tracker.strands[i] h then s.report.take ((closePass s o h).record i)
        else s.report } := by
  by_cases hlength : s.tracker.strands[i].lastCut < finalUpper s.tracker.strands[i] h
  · simp only [State.finalLength, closePass, if_pos hlength, if_pos (And.intro hactive hlength)]
    rfl
  · have hnot : ¬ (s.tracker.strands[i].active = true ∧ s.tracker.strands[i].lastCut < finalUpper s.tracker.strands[i] h) :=
      fun hboth => hlength hboth.2
    simp only [State.finalLength, closePass, if_neg hlength, if_neg hnot, setAt_get_self]

theorem State.closeStrand_of_active {s : State} {i : Fin 4} (o : Origin) (h : Int) (hactive : s.tracker.strands[i].active = true) :
    s.closeStrand o h i = (s.finalLength o i h).withStrand i (s.finalLength o i h).tracker.strands[i].ended := if_pos hactive

/-! ### RUN_CLOSE -/

/-- RUN_CLOSE takes one strand more (R99). -/
theorem closePass_next {s t : State} {o : Origin} {h : Int} {done : List (Fin 4)} {i : Fin 4} (hi : i ∉ done)
    (hreaches : (closePass s o h).Reaches s done t) (hstore : t.store = s.store) (hpress : t.tracker.press = s.tracker.press) :
    (closePass s o h).Reaches s (done ++ [i]) (t.closeStrand o h i) ∧ (t.closeStrand o h i).store = s.store
      ∧ (t.closeStrand o h i).tracker.press = s.tracker.press := by
  obtain ⟨hstrand, hlast⟩ := hreaches.ahead hi
  by_cases hactive : t.tracker.strands[i].active = true
  · have hrecord : (closePass t o h).record i = (closePass s o h).record i := by
      simp only [closePass, hstrand, hstore, hreaches.kept.1, hreaches.kept.2.1]
    have hlast' : (closePass t o h).last i = (closePass s o h).last i := by
      simp only [closePass, hstrand, hstore, hreaches.kept.1, hreaches.kept.2.1, hlast]
    rw [State.closeStrand_of_active o h hactive, State.finalLength_eq o h hactive]
    refine ⟨hreaches.next ?_ ?_ ?_ rfl, hstore, hpress⟩
    · simp only [State.withStrand, State.withTracker, Tracker.putStrand, setAt_setAt, setAt_self]
      simp only [closePass, ← hstrand, if_pos hactive, hstore]
    · rw [← hlast']
      rfl
    · rw [← hrecord]
      simp only [State.withStrand, State.withTracker, closePass, ← hstrand, hactive, Bool.true_and, decide_eq_true_eq]
  · have hsame : t.closeStrand o h i = t := if_neg hactive
    rw [hsame]
    refine ⟨hreaches.next ?_ ?_ ?_ rfl, hstore, hpress⟩
    · have : (closePass s o h).strand i = t.tracker.strands[i] := by
        simp only [closePass, ← hstrand, if_neg hactive]
      rw [this, setAt_get_self]
    · have hnot : ¬ (t.tracker.strands[i].active = true ∧ t.tracker.strands[i].lastCut < finalUpper t.tracker.strands[i] h) :=
        fun hboth => hactive hboth.1
      have : (closePass s o h).last i = t.verdict.last[i] := by
        simp only [closePass, ← hstrand, if_neg hnot, hlast]
      rw [this, setAt_get_self]
    · have : (closePass s o h).forms i = false := by
        simp only [closePass, ← hstrand, Bool.eq_false_iff.mpr hactive, Bool.false_and]
      rw [this, if_neg Bool.false_ne_true]

theorem closePass_all (s : State) (o : Origin) (h : Int) :
    (closePass s o h).Reaches s strandsInOrder (strandsInOrder.foldl (State.closeStrand o h) s)
      ∧ (strandsInOrder.foldl (State.closeStrand o h) s).store = s.store
      ∧ (strandsInOrder.foldl (State.closeStrand o h) s).tracker.press = s.tracker.press :=
  foldl_strands (P := fun done t => (closePass s o h).Reaches s done t ∧ t.store = s.store ∧ t.tracker.press = s.tracker.press)
    ⟨StrandPass.Reaches.start _ s, rfl, rfl⟩ fun _ _ _ hi ⟨hreaches, hstore, hpress⟩ => closePass_next hi hreaches hstore hpress

theorem Press.closing_eq (p : Press) : p.closing = if p = .ending then .closedEnding else .closedRunning := by
  cases p <;> rfl

/-- The state after RUN_CLOSE's pass, with the press at rest (R99, R101). -/
theorem State.returnToIdle_of_pass {s t : State} {o : StrandPass} (h : o.Reaches s strandsInOrder t) (hstore : t.store = s.store) :
    t.returnToIdle = { s with
      tracker := { s.tracker with press := .idle, strands := t.tracker.strands },
      verdict := { s.verdict with last := t.verdict.last },
      report := o.reported strandsInOrder s.report, store := s.store.applyPending } := by
  rw [State.returnToIdle, hstore, ← h.report]
  conv => lhs; rw [h.frame]
  rfl

/-- What RUN_CLOSE makes of one strand (R99). -/
theorem closePass_fields (s : State) (o : Origin) (h : Int) (i : Fin 4) :
    (s.tracker.strands[i].active = false →
      (closePass s o h).strand i = s.tracker.strands[i] ∧ (closePass s o h).last i = s.verdict.last[i])
    ∧ (s.tracker.strands[i].active = true → finalUpper s.tracker.strands[i] h ≤ s.tracker.strands[i].lastCut →
      (closePass s o h).strand i = s.tracker.strands[i].ended ∧ (closePass s o h).last i = s.verdict.last[i])
    ∧ (s.tracker.strands[i].active = true → s.tracker.strands[i].lastCut < finalUpper s.tracker.strands[i] h →
      (closePass s o h).strand i = (s.tracker.strands[i].advance s.store.card (finalUpper s.tracker.strands[i] h)).ended
        ∧ (closePass s o h).last i = some ((closePass s o h).record i).verdict) := by
  refine ⟨fun hactive => ?_, fun hactive hnone => ?_, fun hactive hlength => ?_⟩
  · simp only [closePass, hactive, Bool.false_eq_true, if_false, false_and, and_self]
  · have hnot := Std.not_lt.mpr hnone
    simp only [closePass, hactive, if_true, if_neg hnot, true_and, and_self]
  · simp only [closePass, hactive, if_true, if_pos hlength, true_and, and_self]

/-! ### WITHDRAW -/

/-- The end of a strand: with the last active one the press returns to IDLE (R93, R101). -/
theorem State.endStrand_eq (i : Fin 4) (s : State) : s.endStrand i = { s with
    tracker := { s.tracker with
      press := if (∃ j, j ≠ i ∧ s.tracker.strands[(j : Fin 4)].active = true) then s.tracker.press else .idle,
      strands := setAt s.tracker.strands i s.tracker.strands[i].ended },
    store := if (∃ j, j ≠ i ∧ s.tracker.strands[(j : Fin 4)].active = true) then s.store else s.store.applyPending } := by
  have hended : (s.withStrand i s.tracker.strands[i].ended).tracker.allEnded = true ↔
      ¬ ∃ j, j ≠ i ∧ s.tracker.strands[(j : Fin 4)].active = true := by
    rw [allEnded_iff]
    simp only [State.withStrand, State.withTracker, Tracker.putStrand, setAt_get]
    constructor
    · rintro hall ⟨j, hj, hactive⟩
      have := hall j
      rw [if_neg hj, hactive] at this
      cases this
    · intro hnone j
      split
      · rfl
      · next hj => exact Bool.eq_false_iff.mpr fun hactive => hnone ⟨j, hj, hactive⟩
  simp only [State.endStrand]
  by_cases hleft : ∃ j, j ≠ i ∧ s.tracker.strands[(j : Fin 4)].active = true
  · rw [if_neg fun hall => hended.mp hall hleft, if_pos hleft, if_pos hleft]
    rfl
  · rw [if_pos (hended.mpr hleft), if_neg hleft, if_neg hleft]
    rfl

theorem State.withdraw_of_index {s : State} {strand : Byte} {i : Fin 4} (h : indexOf 4 strand = some i) : s.withdraw strand =
    if s.tracker.strands[i].active then
      ((s.finalLength .withdrawn i s.atHead).endStrand i,
        okReply [yesNo (decide (s.tracker.strands[i].lastCut < finalUpper s.tracker.strands[i] s.atHead))])
    else (s, refused .state) := by
  simp only [State.withdraw, h]

/-- The state after an accepted WITHDRAW (R100, R101). -/
theorem State.withdrawn_eq {s : State} {i : Fin 4} (h : Int) (hactive : s.tracker.strands[i].active = true) :
    (s.finalLength .withdrawn i h).endStrand i = { s with
      tracker := { s.tracker with
        press := if (∃ j, j ≠ i ∧ s.tracker.strands[(j : Fin 4)].active = true) then s.tracker.press else .idle,
        strands := setAt s.tracker.strands i ((closePass s .withdrawn h).strand i) },
      verdict := { s.verdict with last := setAt s.verdict.last i ((closePass s .withdrawn h).last i) },
      report := if s.tracker.strands[i].lastCut < finalUpper s.tracker.strands[i] h then
        s.report.take ((closePass s .withdrawn h).record i) else s.report,
      store := if (∃ j, j ≠ i ∧ s.tracker.strands[(j : Fin 4)].active = true) then s.store else s.store.applyPending } := by
  have hsame (st : Strand) : (∃ j, j ≠ i ∧ (setAt s.tracker.strands i st)[(j : Fin 4)].active = true) ↔
      ∃ j, j ≠ i ∧ s.tracker.strands[(j : Fin 4)].active = true := by
    refine exists_congr fun j => and_congr_right fun hj => ?_
    rw [setAt_get, if_neg hj]
  rw [State.endStrand_eq, State.finalLength_eq _ h hactive]
  simp only [hsame, setAt_setAt, setAt_self]
  simp only [closePass, if_pos hactive]

/-- Settles O55: RUN_CLOSE as a pass over the strands, and WITHDRAW as its step on one. -/
theorem runCloseAndWithdrawFormFinalLengths : Obligations.RunCloseAndWithdrawFormFinalLengths := by
  unfold Obligations.RunCloseAndWithdrawFormFinalLengths
  intro s h upper o record hh hupper ho hrecord
  have hhead : s.atHead = h := hh.symm
  have hupper' (i : Fin 4) : upper i = finalUpper s.tracker.strands[i] h := hupper i
  have hrecord' (o : Origin) (i : Fin 4) : record o i = (closePass s o h).record i := by
    rw [hrecord, hupper']
    rfl
  refine ⟨fun hserves => ⟨fun hpress => ?_, fun hpress => ?_⟩, fun strand hserves => ⟨fun hbad => ?_, fun i hi => ⟨fun hinactive => ?_,
    fun hactive => ?_⟩⟩⟩
  · exact State.refuses_of rfl hserves (if_pos (State.pressIdle_eq_true hpress))
  · obtain ⟨hreaches, hstore, -⟩ := closePass_all s o h
    refine ⟨(strandsInOrder.foldl (State.closeStrand o h) s).tracker.strands,
      (strandsInOrder.foldl (State.closeStrand o h) s).verdict.last, State.exec_of_served rfl hserves ?_, fun i => ?_⟩
    · rw [State.runClose, if_neg (by rw [State.pressIdle_eq_false hpress]; decide), Press.closing_eq, ← ho, hhead,
        State.returnToIdle_of_pass hreaches hstore]
      simp only [StrandPass.reported, ← hrecord', hupper']
      rfl
    · rw [(hreaches.all i).1, (hreaches.all i).2, hupper', hrecord']
      exact closePass_fields s o h i
  · refine State.refuses_of rfl hserves ?_
    rw [State.withdraw, indexOf_of_ge hbad]
  · refine State.refuses_of rfl hserves ?_
    rw [State.withdraw_of_index (indexOf_eq_some_iff.mpr hi), if_neg (by rw [hinactive]; decide)]
  · obtain ⟨-, hended, hformed⟩ := closePass_fields s .withdrawn h i
    refine ⟨(closePass s .withdrawn h).strand i, (closePass s .withdrawn h).last i, decide (s.tracker.strands[i].lastCut < upper i),
      decide_eq_true_iff, fun hyes => ?_, fun hno => ?_, State.exec_of_served rfl hserves ?_⟩
    · rw [hupper', hrecord']
      rw [hupper', decide_eq_true_eq] at hyes
      exact hformed hactive hyes
    · rw [hupper', decide_eq_false_iff_not, Std.not_lt] at hno
      exact hended hactive hno
    · rw [State.withdraw_of_index (indexOf_eq_some_iff.mpr hi), if_pos hactive, hhead, State.withdrawn_eq h hactive, hrecord', hupper']
      simp only [okReply, yesNo, decide_eq_true_eq]

end Sys2Proof.Machine
end

section
/-! The zones that BILLET_JOIN and STOP predict: what each strand is offered, and what the report unit counts (R94, R96, R97, R106,
R108, R109). -/

namespace Sys2Proof.Machine

/-! ### What the report unit counts of a pass -/

/-- The flags and the two counters that an arrival at a strand may move (R108, R114). -/
theorem ReportUnit.countTracked_eq (late coarsened : Bool) (r : ReportUnit) : r.countTracked late coarsened = { r with
    counters := { r.counters with
      lateResult := if late then min 65535 (r.counters.lateResult + 1) else r.counters.lateResult,
      coarsening := if coarsened then min 65535 (r.counters.coarsening + 1) else r.counters.coarsening },
    flags := r.flags ||| (if late then 256#11 else 0#11) ||| (if coarsened then 8#11 else 0#11) } := by
  cases late <;> cases coarsened <;> simp [ReportUnit.countTracked] <;> rfl

/-- What the report unit has counted of a list of strands (R108, R114). -/
def countedOver (late coarsened : Fin 4 → Bool) (done : List (Fin 4)) (r : ReportUnit) : ReportUnit :=
  done.foldl (fun r i => r.countTracked (late i) (coarsened i)) r

/-- A set of flags raised for one more reason. -/
theorem or_ite_or (x m : BitVec 11) (a b : Bool) :
    (x ||| if a then m else 0#11) ||| (if b then m else 0#11) = x ||| if (a || b) then m else 0#11 := by
  cases a <;> cases b <;> simp [BitVec.or_assoc]

theorem or_right_comm (x y z : BitVec 11) : x ||| y ||| z = x ||| z ||| y := by
  rw [BitVec.or_assoc, BitVec.or_comm y z, ← BitVec.or_assoc]

theorem flags_countedOver (late coarsened : Fin 4 → Bool) (done : List (Fin 4)) (r : ReportUnit) :
    (countedOver late coarsened done r).flags =
      r.flags ||| (if done.any late then 256#11 else 0#11) ||| (if done.any coarsened then 8#11 else 0#11) := by
  induction done generalizing r with
  | nil => simp [countedOver]
  | cons i done ih =>
    have hstep : countedOver late coarsened (i :: done) r = countedOver late coarsened done (r.countTracked (late i) (coarsened i)) := rfl
    rw [hstep, ih, ReportUnit.countTracked_eq, List.any_cons, List.any_cons]
    simp only
    rw [or_right_comm _ (if coarsened i then _ else _), or_ite_or, or_ite_or]

theorem rest_countedOver (late coarsened : Fin 4 → Bool) (done : List (Fin 4)) (r : ReportUnit) :
    countedOver late coarsened done r = { r with
      counters := (countedOver late coarsened done r).counters, flags := (countedOver late coarsened done r).flags } := by
  induction done generalizing r with
  | nil => rfl
  | cons i done ih =>
    have hstep : countedOver late coarsened (i :: done) r = countedOver late coarsened done (r.countTracked (late i) (coarsened i)) := rfl
    rw [hstep, ih, ReportUnit.countTracked_eq]

/-- A saturating count after one more. -/
theorem min_count_succ (n k : Nat) (b : Bool) : min 65535 ((if b then min 65535 (n + 1) else n) + k) =
    min 65535 (n + (k + if b then 1 else 0)) := by
  cases b
  · simp
  · simp only [if_true]
    omega

theorem counters_countedOver (late coarsened : Fin 4 → Bool) (done : List (Fin 4)) {r : ReportUnit} (hlate : r.counters.lateResult ≤ 65535)
    (hcoarse : r.counters.coarsening ≤ 65535) : (countedOver late coarsened done r).counters = { r.counters with
      lateResult := min 65535 (r.counters.lateResult + done.countP late),
      coarsening := min 65535 (r.counters.coarsening + done.countP coarsened) } := by
  induction done generalizing r with
  | nil => simp [countedOver, Nat.min_eq_right hlate, Nat.min_eq_right hcoarse]
  | cons i done ih =>
    have hstep : countedOver late coarsened (i :: done) r = countedOver late coarsened done (r.countTracked (late i) (coarsened i)) := rfl
    rw [hstep, ih]
    · rw [ReportUnit.countTracked_eq, List.countP_cons, List.countP_cons]
      simp only [min_count_succ]
    · rw [ReportUnit.countTracked_eq]
      simp only
      split <;> omega
    · rw [ReportUnit.countTracked_eq]
      simp only
      split <;> omega

/-- An arrival taken by every strand, block by block. -/
theorem State.eachStrand_eq (f : Strand → Tracked) (s : State) : s.eachStrand f = { s with
    tracker := { s.tracker with strands := Vector.ofFn fun i => (f s.tracker.strands[i]).strand },
    report := countedOver (fun i => (f s.tracker.strands[i]).late) (fun i => (f s.tracker.strands[i]).coarsened) strandsInOrder
      s.report } := by
  have hpass := foldl_strands
    (P := fun done t => (∀ i, t.tracker.strands[(i : Fin 4)] =
          if i ∈ done then (f s.tracker.strands[i]).strand else s.tracker.strands[i])
        ∧ t.report = countedOver (fun i => (f s.tracker.strands[i]).late) (fun i => (f s.tracker.strands[i]).coarsened) done s.report
        ∧ t = { s with tracker := { s.tracker with strands := t.tracker.strands }, report := t.report })
    (f := fun t i => t.withTracked i (f t.tracker.strands[i])) (s := s) ⟨fun i => rfl, rfl, rfl⟩ ?_
  · obtain ⟨hstrands, hreport, hframe⟩ := hpass
    have hvector : (s.eachStrand f).tracker.strands = Vector.ofFn fun i => (f s.tracker.strands[i]).strand := by
      refine Vector.ext fun i hi => ?_
      have := hstrands ⟨i, hi⟩
      rw [if_pos (mem_strandsInOrder _)] at this
      rw [Vector.getElem_ofFn]
      exact this
    rw [← hvector, ← hreport]
    exact hframe
  · rintro done t i hi ⟨hstrands, hreport, hframe⟩
    have hsame : t.tracker.strands[i] = s.tracker.strands[i] := by rw [hstrands, if_neg hi]
    refine ⟨fun j => ?_, ?_, ?_⟩
    · have hget : (t.withTracked i (f t.tracker.strands[i])).tracker.strands[j] =
          if j = i then (f t.tracker.strands[i]).strand else t.tracker.strands[j] := setAt_get _ i j _
      rw [hget, hstrands j, hsame]
      by_cases hji : j = i <;> simp [hji]
    · have : (t.withTracked i (f t.tracker.strands[i])).report =
          t.report.countTracked (f t.tracker.strands[i]).late (f t.tracker.strands[i]).coarsened := rfl
      rw [this, hreport, hsame]
      simp [countedOver]
    · conv => lhs; rw [hframe]
      rfl

/-! ### A predicted zone at one strand -/

/-- What a strand makes of the zone `zone st` from `x` up to `e` (R106, R108, R109). -/
structure Predicts (f : Strand → Tracked) (x e : Int) (grown : Strand → Strand) (zone : Strand → ClosedZone) : Prop where
  still : ∀ st : Strand, st.extruding = false → f st = st.quiet
  late  : ∀ st : Strand, st.extruding = true → e ≤ st.lastCut → f st = st.tooLate
  taken : ∀ st : Strand, st.extruding = true → st.lastCut < e → f st =
    { strand := { grown st with
        nextZone := if st.nextZone < 65535 then st.nextZone + 1 else 1,
        closed := if (insertZone (zone st) st.closed).length ≤ 48 then insertZone (zone st) st.closed
                  else coarsen (insertZone (zone st) st.closed) },
      late := st.clipCounts x, coarsened := decide (48 ≤ st.closed.length) }

theorem addZone_eq (z : ClosedZone) (st : Strand) : st.addZone z =
    { strand := { st with
        closed := if (insertZone z st.closed).length ≤ 48 then insertZone z st.closed else coarsen (insertZone z st.closed) },
      late := false, coarsened := decide (48 ≤ st.closed.length) } := by
  have hlength := insertZone_length z st.closed
  by_cases hfull : 48 ≤ st.closed.length
  · rw [addZone_of_full hfull, if_neg (by omega), decide_eq_true hfull]
  · rw [addZone_of_room (by omega), if_pos (by omega), decide_eq_false hfull]

/-- A zone offered to a strand that admits it (R109). -/
theorem Strand.offer_of_admitted {st : Strand} {start finish : Int} (cls : ZoneClass) (severity : Severity) (billet : Option Nat)
    (h : st.lastCut < predictedEnd start finish) : st.offer cls severity billet start finish =
      { strand := { st with
          nextZone := if st.nextZone < 65535 then st.nextZone + 1 else 1,
          closed := if (insertZone (predictedZone cls severity billet start finish st) st.closed).length ≤ 48 then
            insertZone (predictedZone cls severity billet start finish st) st.closed
            else coarsen (insertZone (predictedZone cls severity billet start finish st) st.closed) },
        late := st.clipCounts start, coarsened := decide (48 ≤ st.closed.length) } := by
  rw [Strand.offer, if_pos (show st.admits start finish = true from decide_eq_true h), addZone_eq, nextZoneNumber_eq]

theorem Strand.not_admits {st : Strand} {start finish : Int} (h : predictedEnd start finish ≤ st.lastCut) :
    ¬ st.admits start finish = true := by
  rw [Strand.admits, decide_eq_true_eq]
  exact Std.not_lt.mpr h

/-- The zone that BILLET_JOIN predicts (R96). -/
theorem predicts_join (line : LineSection) (p e : Int) (grown : Strand → Strand) (zone : Strand → ClosedZone)
    (he : e = p + line.weldLead + (if line.weldLength = 0 then 1 else line.weldLength))
    (hgrown : ∀ st, grown st = { st with billet := min 65535 (st.billet + 1) })
    (hzone : ∀ st, zone st = {
      number := st.nextZone, cls := .weld, feature := none, severity := .cutout, start := max (p + line.weldLead) st.lastCut,
      finish := e, sides := none, worst := none, billet := some (min 65535 (st.billet + 1)),
      sources := { dimension := false, blind := false, weld := true, stop := false } }) :
    Predicts (Strand.join line p) (p + line.weldLead) e grown zone := by
  have hend : predictedEnd (p + line.weldLead) (p + line.weldLead + line.weldLength) = e := by
    rw [he, predictedEnd]
    repeat' split
    all_goals omega
  refine ⟨fun st h => if_pos (by rw [h]; rfl), fun st h hlate => ?_, fun st h hadmit => ?_⟩
  · rw [Strand.join, if_neg (by rw [h]; decide)]
    exact if_neg (Strand.not_admits (hend ▸ hlate))
  · rw [Strand.join, if_neg (by rw [h]; decide)]
    refine (if_pos (show st.admits _ _ = true from decide_eq_true (hend ▸ hadmit))).trans ?_
    have hlt : Strand.lastCut { st with billet := bump16 st.billet } < predictedEnd (p + line.weldLead) (p + line.weldLead + line.weldLength) :=
      hend ▸ hadmit
    have hpredicted : predictedZone .weld .cutout (some (bump16 st.billet)) (p + line.weldLead) (p + line.weldLead + line.weldLength)
        { st with billet := bump16 st.billet } = zone st := by
      rw [hzone, predictedZone, hend]
      rfl
    rw [Strand.offer_of_admitted _ _ _ hlt, hpredicted, hgrown]
    rfl

/-- The zone that STOP predicts (R97). -/
theorem predicts_halt (line : LineSection) (p e : Int) (grown : Strand → Strand) (zone : Strand → ClosedZone)
    (he : e = p + line.stopMargin + 1) (hgrown : ∀ st, grown st = st)
    (hzone : ∀ st, zone st = {
      number := st.nextZone, cls := .stop, feature := none, severity := line.stopSeverity.severity,
      start := max (p - line.stopMargin) st.lastCut, finish := e, sides := none, worst := none, billet := none,
      sources := { dimension := false, blind := false, weld := false, stop := true } }) :
    Predicts (Strand.halt line p) (p - line.stopMargin) e grown zone := by
  have hend : predictedEnd (p - line.stopMargin) (p + line.stopMargin + 1) = e := by
    rw [he, predictedEnd, if_neg (by omega)]
  refine ⟨fun st h => if_pos (by rw [h]; rfl), fun st h hlate => ?_, fun st h hadmit => ?_⟩
  · rw [Strand.halt, if_neg (by rw [h]; decide)]
    exact if_neg (Strand.not_admits (hend ▸ hlate))
  · have hpredicted : predictedZone .stop line.stopSeverity.severity none (p - line.stopMargin) (p + line.stopMargin + 1) st = zone st := by
      rw [hzone, predictedZone, hend]
      rfl
    rw [Strand.halt, if_neg (by rw [h]; decide), Strand.offer_of_admitted _ _ _ (hend ▸ hadmit), hpredicted, hgrown]

section
variable {f : Strand → Tracked} {x e : Int} {grown : Strand → Strand} {zone : Strand → ClosedZone} (h : Predicts f x e grown zone) (st : Strand)
include h

theorem Predicts.late_iff : (f st).late = true ↔
    st.extruding = true ∧ (e ≤ st.lastCut ∨ x < st.lastCut ∧ st.nose < st.lastCut) := by
  cases hextruding : st.extruding
  · rw [h.still st hextruding]
    exact iff_of_false Bool.false_ne_true fun hboth => Bool.false_ne_true hboth.1
  · obtain hlt | hle := Int.lt_or_le st.lastCut e
    · rw [h.taken st hextruding hlt]
      simp only [Strand.clipCounts, Bool.and_eq_true, decide_eq_true_eq, true_and]
      exact ⟨.inr, fun hcase => hcase.resolve_left (Std.not_le.mpr hlt)⟩
    · rw [h.late st hextruding hle]
      exact iff_of_true rfl ⟨rfl, .inl hle⟩

theorem Predicts.coarsened_iff : (f st).coarsened = true ↔ (st.extruding = true ∧ st.lastCut < e) ∧ 48 ≤ st.closed.length := by
  cases hextruding : st.extruding
  · rw [h.still st hextruding]
    exact iff_of_false Bool.false_ne_true fun hboth => Bool.false_ne_true hboth.1.1
  · obtain hlt | hle := Int.lt_or_le st.lastCut e
    · rw [h.taken st hextruding hlt]
      simp only [decide_eq_true_eq, hlt, true_and]
    · rw [h.late st hextruding hle]
      exact iff_of_false Bool.false_ne_true fun hboth => absurd hboth.1.2 (Std.not_lt.mpr hle)

theorem Predicts.strand_of_not_admitted (hnot : ¬ (st.extruding = true ∧ st.lastCut < e)) : (f st).strand = st := by
  cases hextruding : st.extruding
  · rw [h.still st hextruding]
    rfl
  · rw [h.late st hextruding (Std.not_lt.mp fun hlt => hnot ⟨hextruding, hlt⟩)]
    rfl

end

/-! ### BILLET_JOIN and STOP -/

/-- BILLET_JOIN and STOP, by what each strand makes of the zone predicted. -/
theorem press_predicts {s : State} {cmd : Instr} {code : Byte} {p x e : Int} {after : Press} {line : LineSection}
    {grown : Strand → Strand} {zone : Strand → ClosedZone} (hserves : s.serves cmd) (hp : p = ((s.runout.travel / 1000 : Nat) : Int))
    (hline : line = s.store.card.line)
    (hcase : cmd = .billetJoin ∧ (s.tracker.press = .running ∨ s.tracker.press = .stopped) ∧ after = s.tracker.press ∧ code = 1
        ∧ x = p + line.weldLead ∧ e = p + line.weldLead + (if line.weldLength = 0 then 1 else line.weldLength)
        ∧ (∀ st, grown st = { st with billet := min 65535 (st.billet + 1) })
        ∧ (∀ st, zone st = { number := st.nextZone, cls := .weld, feature := none, severity := .cutout, start := max x st.lastCut,
                             finish := e, sides := none, worst := none, billet := some (min 65535 (st.billet + 1)),
                             sources := { dimension := false, blind := false, weld := true, stop := false } })
      ∨ cmd = .stop ∧ s.tracker.press = .running ∧ after = .stopped ∧ code = 2
        ∧ x = p - line.stopMargin ∧ e = p + line.stopMargin + 1 ∧ (∀ st, grown st = st)
        ∧ (∀ st, zone st = { number := st.nextZone, cls := .stop, feature := none, severity := line.stopSeverity.severity,
                             start := max x st.lastCut, finish := e, sides := none, worst := none, billet := none,
                             sources := { dimension := false, blind := false, weld := false, stop := true } })) :
    ∃ f, Predicts f x e grown zone ∧ exec cmd s = .next (State.answered { s with
        tracker := { s.tracker with press := after, strands := Vector.ofFn fun i => (f s.tracker.strands[i]).strand },
        report := countedOver (fun i => (f s.tracker.strands[i]).late) (fun i => (f s.tracker.strands[i]).coarsened) strandsInOrder
          s.report } cmd { status := .ok, reason := none, fields := code :: leInt p ++ [pressCode after] }) := by
  subst hline
  obtain ⟨rfl, hpress, rfl, rfl, rfl, he, hgrown, hzone⟩ | ⟨rfl, hpress, rfl, rfl, rfl, he, hgrown, hzone⟩ := hcase
  · refine ⟨Strand.join s.store.card.line p, predicts_join _ _ _ _ _ he hgrown hzone, State.exec_of_served rfl hserves ?_⟩
    rw [State.billetJoin, if_pos (State.pressing_iff.mpr hpress), show s.atDie = p from hp.symm, State.eachStrand_eq]
    rfl
  · refine ⟨Strand.halt s.store.card.line p, predicts_halt _ _ _ _ _ he hgrown hzone, State.exec_of_served rfl hserves ?_⟩
    rw [State.stop, hpress]
    simp only
    rw [show s.atDie = p from hp.symm, State.eachStrand_eq]
    rfl

/-- Settles O53: the zone predicted at each strand, and the counts of the pass. -/
theorem billetJoinAndStopAddPredictedZones : Obligations.BilletJoinAndStopAddPredictedZones := by
  unfold Obligations.BilletJoinAndStopAddPredictedZones
  intro s cmd code p x e after line coming admitted late grown zone hserves hp hline hcase hcoming hadmitted hlate
  obtain ⟨f, hf, hexec⟩ := press_predicts hserves hp hline hcase
  have hextruding (i : Fin 4) : coming i = true ↔ s.tracker.strands[i].extruding = true := (hcoming i).trans (Strand.extruding_iff _).symm
  have hadmitted' (i : Fin 4) : admitted i = true ↔ s.tracker.strands[i].extruding = true ∧ s.tracker.strands[i].lastCut < e := by
    rw [hadmitted, hextruding]
  have hlateEq : (fun i => (f s.tracker.strands[i]).late) = late := funext fun i => Bool.eq_iff_iff.mpr (by
    rw [hf.late_iff, hlate, hextruding])
  have hcoarseEq : (fun i => (f s.tracker.strands[i]).coarsened) = fun i => admitted i && decide (48 ≤ s.tracker.strands[i].closed.length) :=
    funext fun i => Bool.eq_iff_iff.mpr (by rw [hf.coarsened_iff, Bool.and_eq_true, hadmitted', decide_eq_true_eq])
  have hanyLate : strandsInOrder.any late = true ↔ ∃ i, late i = true := by
    simp only [List.any_eq_true, mem_strandsInOrder, true_and]
  have hanyCoarse : (strandsInOrder.any fun i => admitted i && decide (48 ≤ s.tracker.strands[i].closed.length)) = true ↔
      ∃ i, admitted i = true ∧ 48 ≤ s.tracker.strands[i].closed.length := by
    simp only [List.any_eq_true, mem_strandsInOrder, true_and, Bool.and_eq_true, decide_eq_true_eq]
  rw [hlateEq, hcoarseEq] at hexec
  refine ⟨Vector.ofFn fun i => (f s.tracker.strands[i]).strand, countedOver late (fun i => admitted i && decide (48 ≤ s.tracker.strands[i].closed.length)) strandsInOrder s.report, ?_,
    fun i hnot => ?_, fun i zs hyes hzs => ?_, fun hsound => ?_, ?_⟩
  · rw [← rest_countedOver]
    exact hexec
  · rw [Fin.getElem_fin, Vector.getElem_ofFn]
    refine hf.strand_of_not_admitted _ fun hyes => ?_
    rw [(hadmitted' i).mpr hyes] at hnot
    cases hnot
  · obtain ⟨hcomes, hbelow⟩ := (hadmitted' i).mp hyes
    rw [Fin.getElem_fin, Vector.getElem_ofFn]
    rw [Fin.eta, hf.taken _ hcomes hbelow, hzs]
  · obtain ⟨⟨-, -, -, -, -, -, hlateSound, hcoarseSound, -⟩, -⟩ := hsound
    exact counters_countedOver _ _ _ hlateSound hcoarseSound
  · rw [flags_countedOver]
    simp only [hanyLate, hanyCoarse]

end Sys2Proof.Machine
end

section
/-! The invariants at reset, and the persistence runs of the section engine: out runs that open zones, in runs that close them, miss
runs that open and close BLIND zones (R80 to R87). -/

namespace Sys2Proof.Machine

/-! ### Reset -/

theorem resetStrand_sound : (Strand.fresh .absent 0).listSound ∧ (Strand.fresh .absent 0).tableSound := by
  refine ⟨⟨List.Pairwise.nil, Nat.zero_le _, fun z hz => by cases hz⟩, fun f o ho => ?_, fun f o ho => ?_⟩
  · rw [Strand.fresh, replicate_get] at ho
    cases ho
  · rw [Strand.fresh, replicate_get] at ho
    cases ho

/-- Settles O4: each register at reset is one value over all its places. -/
theorem invariantsHoldAtReset : Obligations.InvariantsHoldAtReset := by
  unfold Obligations.InvariantsHoldAtReset
  have hstrand (i : Fin 4) : State.reset.tracker.strands[i] = Strand.fresh .absent 0 := replicate_get _ _
  have hbank (b : Fin 8) : State.reset.store.banks[b] = Bank.neverStored := replicate_get _ _
  have hpending (f : Fin 32) : State.reset.store.pendingLimits[f] = none := replicate_get _ _
  have hhead (h : Fin 8) : State.reset.scan.heads[h] = { state := .offline, miss := 0, sparse := 0, lastLine := none, check := .none } :=
    replicate_get _ _
  have hcardHead (h : Fin 8) : State.reset.store.card.heads[h] = HeadRecord.empty := replicate_get _ _
  have hslot (i : Fin 4) : State.reset.scan.slots[i] = none := replicate_get _ _
  have hthermal (i : Fin 4) : State.reset.thermal[i] = { temperature := 2000, band := 3, fallback := false, timer := none } :=
    replicate_get _ _
  refine ⟨?_, ⟨cardInRange_empty, fun f l hl => ?_, fun b c hc => ?_, trivial⟩, ⟨rfl, trivial, fun b hb => ?_⟩,
    ⟨trivial, fun j hj => (by cases hj), fun b hb => ?_⟩, fun i => ?_, ⟨iff_of_true rfl fun i => ?_, fun _ => hpending⟩, fun h => ?_,
    ⟨fun i k hk => ?_, fun v hv => (by cases hv), by decide⟩, fun i => ?_, ⟨by decide, by decide, fun i r hr => ?_⟩, ?_, ?_⟩
  · exact ⟨by decide, by decide, by decide, by decide, fun t ht => (by cases ht), by decide, fun p hp => (by cases hp), by decide,
      fun h => absurd rfl h⟩
  · rw [hpending] at hl
    cases hl
  · rw [hbank] at hc
    cases hc
  · rw [hbank] at hb
    cases hb
  · rw [hbank] at hb
    cases hb
  · rw [hstrand]
    exact resetStrand_sound
  · rw [hstrand]
    rfl
  · rw [hhead, hcardHead]
    exact ⟨iff_of_true rfl rfl, fun _ => ⟨rfl, rfl⟩, fun h => (by cases h), fun h => (by cases h), by decide, by decide⟩
  · rw [hslot] at hk
    cases hk
  · rw [hthermal]
    exact ⟨by decide, fun h => (by cases h)⟩
  · cases hr
  · exact ⟨Counters.sound_zero, by decide, by decide, by decide⟩
  · exact ⟨.inl rfl, fun _ => rfl, fun h => (by cases h)⟩

/-! ### Miss runs -/

theorem Persistence.missed_eq {p : Persistence} {m : Nat} {q : Int} {run : ScanRun} (limit : Nat)
    (hnone : p.miss = none → run = { count := min 255 m, start := q })
    (hsome : ∀ r, p.miss = some r → run = { count := min 255 (r.count + m), start := r.start }) : p.miss_ limit m q =
      if decide (0 < limit) && !p.blind && decide (limit ≤ run.count) then
        ({ p with miss := some run, blind := true }, some run.start)
      else ({ p with miss := some run }, none) := by
  unfold Persistence.miss_
  cases hmiss : p.miss with
  | none =>
    rw [hnone hmiss]
    simp only [bump, Nat.zero_add]
  | some r =>
    rw [hsome r hmiss]
    rfl

theorem Persistence.missed_opens {p : Persistence} {limit m : Nat} {q : Int} {run : ScanRun}
    (hnone : p.miss = none → run = { count := min 255 m, start := q })
    (hsome : ∀ r, p.miss = some r → run = { count := min 255 (r.count + m), start := r.start }) 
    (h : 0 < limit ∧ p.blind = false ∧ limit ≤ run.count) :
    p.miss_ limit m q = ({ p with miss := some run, blind := true }, some run.start) := by
  obtain ⟨hlimit, hblind, hrun⟩ := h
  rw [Persistence.missed_eq limit hnone hsome, if_pos]
  simp only [hlimit, hblind, hrun, decide_true, Bool.not_false, Bool.and_self]

theorem Persistence.missed_counts {p : Persistence} {limit m : Nat} {q : Int} {run : ScanRun}
    (hnone : p.miss = none → run = { count := min 255 m, start := q })
    (hsome : ∀ r, p.miss = some r → run = { count := min 255 (r.count + m), start := r.start }) 
    (h : limit = 0 ∨ p.blind = true ∨ run.count < limit) : p.miss_ limit m q = ({ p with miss := some run }, none) := by
  rw [Persistence.missed_eq limit hnone hsome, if_neg]
  rw [Bool.and_eq_true, Bool.and_eq_true, Bool.not_eq_true', decide_eq_true_eq, decide_eq_true_eq]
  rintro ⟨⟨hlimit, hblind⟩, hrun⟩
  obtain h | h | h := h
  · omega
  · rw [hblind] at h
    cases h
  · omega

theorem Persistence.endMiss_sighted {p : Persistence} (x : Int) (h : p.blind = false) : p.endMiss x = ({ p with miss := none }, none) := by
  simp only [Persistence.endMiss, h, Bool.false_eq_true, if_false]

theorem Persistence.endMiss_blind {p : Persistence} {r : ScanRun} (x : Int) (h : p.blind = true) (hr : p.miss = some r) :
    p.endMiss x = ({ p with miss := none, blind := false }, some (if x ≤ r.start then r.start + 1 else x)) := by
  simp only [Persistence.endMiss, h, hr, if_true, closeEnd]

/-! ### In runs -/

theorem Persistence.inResult_shut {p : Persistence} (k : Nat) (x : Int) (h : p.zone = none) : p.in_ k x = ({ p with out := none }, none) := by
  rw [Persistence.in_, h]

/-- An IN result while a zone is open (R82). -/
theorem Persistence.inResult_run {p : Persistence} {k : Nat} {x : Int} {z : EngineZone} {run : ScanRun} (hzone : p.zone = some z)
    (hnone : p.inRun = none → run = { count := 1, start := x })
    (hsome : ∀ r, p.inRun = some r → run = { count := min 15 (r.count + 1), start := r.start }) : p.in_ k x =
      if k ≤ run.count then ({ p with out := none, inRun := none, zone := none }, some (closeEnd z.start run.start))
      else ({ p with out := none, inRun := some run }, none) := by
  unfold Persistence.in_
  rw [hzone]
  cases hrun : p.inRun with
  | none =>
    rw [hnone hrun]
  | some r =>
    rw [hsome r hrun]
    rfl

theorem foldl_inResult_shut (k : Nat) (xs : List Int) {p : Persistence} (h : p.zone = none) :
    (xs.foldl (fun p x => (p.in_ k x).1) p).zone = none := by
  induction xs generalizing p with
  | nil => exact h
  | cons x xs ih =>
    rw [List.foldl_cons, Persistence.inResult_shut k x h]
    exact ih h

/-- An open zone under IN results, `n` of them taken before: open while they are fewer than `k` (R82). -/
theorem foldl_inResult_open {k n : Nat} (xs : List Int) {p : Persistence} {z : EngineZone} (hk : k ≤ 15) (hn : n < k) (hzone : p.zone = some z)
    (hnone : p.inRun = none → n = 0) (hsome : ∀ r, p.inRun = some r → r.count = n) :
    (xs.foldl (fun p x => (p.in_ k x).1) p).zone = if n + xs.length < k then some z else none := by
  induction xs generalizing p n with
  | nil => rw [List.foldl_nil, hzone, List.length_nil, Nat.add_zero, if_pos hn]
  | cons x xs ih =>
    obtain ⟨run, hrun, hcount⟩ : ∃ run : ScanRun, ((p.inRun = none → run = { count := 1, start := x })
        ∧ ∀ r, p.inRun = some r → run = { count := min 15 (r.count + 1), start := r.start }) ∧ run.count = n + 1 := by
      cases hin : p.inRun with
      | none => exact ⟨{ count := 1, start := x }, ⟨fun _ => rfl, fun r hr => (by cases hr)⟩, by rw [hnone hin]⟩
      | some r =>
        have hr := hsome r hin
        refine ⟨{ count := min 15 (r.count + 1), start := r.start }, ⟨fun h => (by cases h), fun r' hr' => (by cases hr'; rfl)⟩, ?_⟩
        change min 15 (r.count + 1) = n + 1
        omega
    rw [List.foldl_cons, Persistence.inResult_run hzone hrun.1 hrun.2]
    by_cases hclose : k ≤ run.count
    · rw [if_pos hclose, foldl_inResult_shut k xs rfl, if_neg (by rw [List.length_cons]; omega)]
    · have hrest := ih (n := n + 1) (p := { p with out := none, inRun := some run }) (by omega) hzone (fun h => by cases h)
        fun r hr => by cases hr; exact hcount
      rw [if_neg hclose, hrest, List.length_cons]
      congr 1
      rw [eq_iff_iff]
      omega

/-! ### Out runs -/

/-- An out run after one more result (R81). -/
theorem OutRun.extend_eq {o : Option OutRun} {side : Side} {sides : Sides} {x : Int} {w : Worst} {run : OutRun}
    (hside : side = .low ∧ sides = .low ∨ side = .high ∧ sides = .high)
    (hnone : o = none → run = { count := 1, start := x, sides := sides, worst := w })
    (hsome : ∀ r, o = some r → run =
      { count := min 15 (r.count + 1), start := r.start, sides := if r.sides = sides then r.sides else .both,
        worst := if r.worst.excess < w.excess then w else r.worst }) : OutRun.extend side x w o = run := by
  have hsides : sideAsSides side = sides := by
    obtain ⟨rfl, rfl⟩ | ⟨rfl, rfl⟩ := hside <;> rfl
  cases o with
  | none => rw [hnone rfl, OutRun.extend, hsides]
  | some r =>
    rw [hsome r rfl, OutRun.extend, hsides, joinSides_eq]
    rfl

theorem Persistence.outResult_opens {p : Persistence} {k : Nat} {side : Side} {x : Int} {w : Worst} {run : OutRun}
    (hrun : OutRun.extend side x w p.out = run) (hzone : p.zone = none) (h : k ≤ run.count) : p.out_ k side x w =
      ({ p with out := some run, inRun := none, zone := some { start := run.start, worst := run.worst } },
        .opened run.start run.sides run.worst) := by
  rw [Persistence.out_, hzone, hrun]
  exact if_pos h

theorem Persistence.outResult_counts {p : Persistence} {k : Nat} {side : Side} {x : Int} {w : Worst} {run : OutRun}
    (hrun : OutRun.extend side x w p.out = run) (hzone : p.zone = none) (h : run.count < k) : p.out_ k side x w =
      ({ p with out := some run, inRun := none }, .nothing) := by
  rw [Persistence.out_, hzone, hrun]
  exact if_neg (Std.not_le.mpr h)

theorem Persistence.outResult_worsens {p : Persistence} {k : Nat} {side : Side} {x : Int} {w : Worst} {run : OutRun} {z : EngineZone}
    (hrun : OutRun.extend side x w p.out = run) (hzone : p.zone = some z) (h : z.worst.excess < w.excess) : p.out_ k side x w =
      ({ p with out := some run, inRun := none, zone := some { z with worst := w } }, .updated (some w)) := by
  rw [Persistence.out_, hzone, hrun]
  exact if_pos h

theorem Persistence.outResult_keeps {p : Persistence} {k : Nat} {side : Side} {x : Int} {w : Worst} {run : OutRun} {z : EngineZone}
    (hrun : OutRun.extend side x w p.out = run) (hzone : p.zone = some z) (h : w.excess ≤ z.worst.excess) : p.out_ k side x w =
      ({ p with out := some run, inRun := none }, .updated none) := by
  rw [Persistence.out_, hzone, hrun]
  exact if_neg (Std.not_lt.mpr h)

/-- A worst is one of those seen, and no other exceeds it. -/
def IsWorst (v : Worst) (seen : List (Int × Worst)) : Prop :=
  v ∈ seen.map Prod.snd ∧ ∀ r ∈ seen, r.2.excess ≤ v.excess

theorem IsWorst.more {v w : Worst} {seen : List (Int × Worst)} (h : IsWorst v seen) (y : Int) :
    IsWorst (if v.excess < w.excess then w else v) (seen ++ [(y, w)]) := by
  obtain ⟨hmem, hall⟩ := h
  split
  · next hlt =>
    refine ⟨by simp, fun r hr => ?_⟩
    obtain hr | hr := List.mem_append.mp hr
    · exact Int.le_trans (hall r hr) (Int.le_of_lt hlt)
    · exact List.mem_singleton.mp hr ▸ Int.le_refl _
  · next hle =>
    refine ⟨by rw [List.map_append]; exact List.mem_append_left _ hmem, fun r hr => ?_⟩
    obtain hr | hr := List.mem_append.mp hr
    · exact hall r hr
    · rw [List.mem_singleton.mp hr]
      exact Std.not_lt.mp hle

/-- What a record shows of the out results it has taken since it was clear, the first at `x` (R81). -/
structure OutSince (k : Nat) (x : Int) (seen : List (Int × Worst)) (p : Persistence) : Prop where
  run    : ∃ run, p.out = some run ∧ run.count = min 15 seen.length ∧ run.start = x ∧ IsWorst run.worst seen
  opened : p.zone.isSome = true ↔ k ≤ seen.length
  zone   : ∀ z, p.zone = some z → z.start = x ∧ IsWorst z.worst seen

theorem OutSince.first (k : Nat) (side : Side) (x : Int) (w : Worst) :
    OutSince k x [(x, w)] (Persistence.clear.out_ k side x w).1 := by
  have hworst : IsWorst w [(x, w)] := ⟨by simp, fun r hr => List.mem_singleton.mp hr ▸ Int.le_refl _⟩
  by_cases hk : k ≤ 1
  · rw [Persistence.outResult_opens (run := { count := 1, start := x, sides := sideAsSides side, worst := w }) rfl rfl hk]
    exact ⟨⟨_, rfl, rfl, rfl, hworst⟩, iff_of_true rfl hk, fun z hz => by cases hz; exact ⟨rfl, hworst⟩⟩
  · rw [Persistence.outResult_counts (run := { count := 1, start := x, sides := sideAsSides side, worst := w }) rfl rfl (by simp only; omega)]
    exact ⟨⟨_, rfl, rfl, rfl, hworst⟩, iff_of_false (by rintro ⟨⟩) hk, fun z hz => by cases hz⟩

theorem OutSince.next {k : Nat} {x : Int} {seen : List (Int × Worst)} {p : Persistence} (h : OutSince k x seen p) (side : Side) (y : Int)
    (w : Worst) (hk : k ≤ 15) : OutSince k x (seen ++ [(y, w)]) (p.out_ k side y w).1 := by
  obtain ⟨⟨run, hout, hcount, hstart, hworst⟩, hopened, hzone⟩ := h
  have hextend : OutRun.extend side y w p.out =
      { count := min 15 (run.count + 1), start := run.start, sides := joinSides run.sides (sideAsSides side),
        worst := if run.worst.excess < w.excess then w else run.worst } := by
    rw [hout]
    rfl
  have hcount' : min 15 (run.count + 1) = min 15 (seen ++ [(y, w)]).length := by
    rw [List.length_append, List.length_singleton]
    omega
  have hrun : ∃ r : OutRun, some (OutRun.extend side y w p.out) = some r ∧ r.count = min 15 (seen ++ [(y, w)]).length ∧ r.start = x
      ∧ IsWorst r.worst (seen ++ [(y, w)]) := ⟨_, rfl, by rw [hextend]; exact hcount', by rw [hextend]; exact hstart,
        by rw [hextend]; exact hworst.more y⟩
  have hlength : (seen ++ [(y, w)]).length = seen.length + 1 := by simp
  cases hz : p.zone with
  | none =>
    have hbelow : seen.length < k := Std.not_le.mp fun hle => by
      have := hopened.mpr hle
      rw [hz] at this
      cases this
    by_cases hopens : k ≤ (OutRun.extend side y w p.out).count
    · rw [Persistence.outResult_opens rfl hz hopens]
      rw [hextend] at hopens
      refine ⟨hrun, iff_of_true rfl (by rw [hlength]; simp only at hopens; omega), fun z hz' => ?_⟩
      cases hz'
      rw [hextend]
      exact ⟨hstart, hworst.more y⟩
    · rw [Persistence.outResult_counts rfl hz (Std.not_le.mp hopens)]
      rw [hextend] at hopens
      refine ⟨hrun, iff_of_false (by rw [hz]; decide) (by rw [hlength]; simp only at hopens; omega), fun z hz' => ?_⟩
      rw [hz] at hz'
      cases hz'
  | some z =>
    obtain ⟨hzstart, hzworst⟩ := hzone z hz
    have hreached : k ≤ (seen ++ [(y, w)]).length := by
      have := hopened.mp (by rw [hz]; rfl)
      omega
    have hmore := hzworst.more (w := w) y
    by_cases hworse : z.worst.excess < w.excess
    · rw [Persistence.outResult_worsens rfl hz hworse]
      rw [if_pos hworse] at hmore
      exact ⟨hrun, iff_of_true rfl hreached, fun z' hz' => by cases hz'; exact ⟨hzstart, hmore⟩⟩
    · rw [Persistence.outResult_keeps rfl hz (Std.not_lt.mp hworse)]
      rw [if_neg hworse] at hmore
      refine ⟨hrun, iff_of_true (by rw [hz]; rfl) hreached, fun z' hz' => ?_⟩
      rw [hz] at hz'
      cases hz'
      exact ⟨hzstart, hmore⟩

theorem OutSince.all {k : Nat} {x : Int} (side : Side) (hk : k ≤ 15) (rs : List (Int × Worst)) {seen : List (Int × Worst)} {p : Persistence}
    (h : OutSince k x seen p) : OutSince k x (seen ++ rs) (rs.foldl (fun p r => (p.out_ k side r.1 r.2).1) p) := by
  induction rs generalizing seen p with
  | nil => simpa using h
  | cons r rs ih => simpa using ih (h.next side r.1 r.2 hk)

end Sys2Proof.Machine
end

section
/-! What a strand's evaluation makes of its persistence records, and the events it sends (R81 to R87). -/

namespace Sys2Proof.Machine

/-- The class and the side of an out result: the excess is measured from that side's bound (R79). -/
theorem excessOf_low {l : Limits} {w : Int} (h : classify l w = .low) : excessOf l w = l.nominal + l.lower - w := by
  unfold classify at h
  split at h
  · next hlow => exact if_pos hlow
  · split at h <;> cases h

theorem excessOf_high {l : Limits} {w : Int} (h : classify l w = .high) : excessOf l w = w - (l.nominal + l.upper) := by
  unfold classify at h
  split at h
  · cases h
  · next hlow => exact if_neg hlow

/-- A result found carries the class of its cold value (R79). -/
theorem featureResult_class {c : Card} {k : Slot} {i : Fin 4} {f : Fin 32} {x : Feature} {cls : Class} {h w : Int}
    (hx : c.features[f] = some x) (hr : featureResult c k i f = some (.found cls h w)) : classify x.limits w = cls := by
  unfold featureResult at hr
  rw [hx] at hr
  simp only at hr
  split at hr
  · cases hr
  · cases hr
    rfl

theorem featureResult_absent {c : Card} (k : Slot) (i : Fin 4) {f : Fin 32} (h : c.features[f] = none) : featureResult c k i f = none := by
  rw [featureResult, h]

/-! ### The carried skips and the slot's own result -/

theorem skipsOn_absent {c : Card} (k : Slot) (i : Fin 4) {f : Fin 32} (p : Persistence) (h : c.features[f] = none) :
    skipsOn c k i f p = (p, []) := by
  rw [skipsOn, h]

theorem skipsOn_none {c : Card} {k : Slot} (i : Fin 4) (f : Fin 32) (p : Persistence) (h : k.skips = none) :
    skipsOn c k i f p = (p, []) := by
  unfold skipsOn
  split
  · next m _ hm =>
    rw [h] at hm
    cases hm
  · rfl

theorem skipsOn_some {c : Card} {k : Slot} {f : Fin 32} {x : Feature} {m : Skips} (i : Fin 4) (p : Persistence)
    (hx : c.features[f] = some x) (hm : k.skips = some m) : skipsOn c k i f p =
      ((p.miss_ c.line.blindLimit m.count m.first).1, blindEvents i f (p.miss_ c.line.blindLimit m.count m.first).2) := by
  rw [skipsOn, hx, hm]

/-- The record after the carried skips (R85). -/
theorem skipsOn_record {c : Card} {k : Slot} {i : Fin 4} {f : Fin 32} {x : Feature} {p q : Persistence} (hx : c.features[f] = some x)
    (hnone : k.skips = none → q = p) (hsome : ∀ m, k.skips = some m → q = (p.miss_ c.line.blindLimit m.count m.first).1) :
    (skipsOn c k i f p).1 = q := by
  cases hskips : k.skips with
  | none => rw [skipsOn_none i f p hskips, hnone hskips]
  | some m => rw [skipsOn_some i p hx hskips, hsome m hskips]

theorem resultOn_absent {c : Card} (k : Slot) (i : Fin 4) {f : Fin 32} (p : Persistence) (h : c.features[f] = none) :
    resultOn c k i f p = (p, []) := by
  rw [resultOn, h]

/-- The record and the events of a feature's own result (R81 to R84). -/
theorem resultOn_found {c : Card} {k : Slot} {i : Fin 4} {f : Fin 32} {x : Feature} {r : FeatureResult} (p : Persistence)
    (hx : c.features[f] = some x) (hr : featureResult c k i f = some r) :
    resultOn c k i f p = p.result i f x.limits c.line.blindLimit k.x r := by
  rw [resultOn, hx, hr]

/-- An out result on a side, with the excess measured from that side's bound (R79, R81). -/
theorem resultOn_out {c : Card} {k : Slot} {i : Fin 4} {f : Fin 32} {x : Feature} {side : Side} {h w excess : Int} (p : Persistence)
    (hx : c.features[f] = some x)
    (hr : featureResult c k i f = some (.found (match (generalizing := false) side with | .low => .low | .high => .high) h w))
    (hexcess : side = .low ∧ excess = x.limits.nominal + x.limits.lower - w
      ∨ side = .high ∧ excess = w - (x.limits.nominal + x.limits.upper)) : resultOn c k i f p =
      (((p.endMiss k.x).1.out_ x.limits.kOpen side k.x { excess := excess, w := w }).1,
        closeEvents i f .blind (p.endMiss k.x).2
          ++ ((p.endMiss k.x).1.out_ x.limits.kOpen side k.x { excess := excess, w := w }).2.events i f side) := by
  have hclass := featureResult_class hx hr
  rw [resultOn_found p hx hr]
  obtain ⟨rfl, rfl⟩ | ⟨rfl, rfl⟩ := hexcess
  · rw [← excessOf_low hclass]
    rfl
  · rw [← excessOf_high hclass]
    rfl

/-! ### The events -/

theorem blindEvents_eq {i : Fin 4} {blindOpen : Fin 32 → Option Int → List TrackerEvent} {f : Fin 32} (o : Option Int)
    (hnone : blindOpen f none = []) (hsome : ∀ a, blindOpen f (some a) = [.start { strand := i, feature := f, start := a, finding := .blind }]) :
    blindOpen f o = blindEvents i f o := by
  cases o with
  | none => exact hnone
  | some a => exact hsome a

theorem closeEvents_eq {i : Fin 4} {kind : ZoneKind} {close : Fin 32 → Option Int → List TrackerEvent} {f : Fin 32} (o : Option Int)
    (hnone : close f none = []) (hsome : ∀ a, close f (some a) = [.close { strand := i, feature := f, kind := kind, finish := a }]) :
    close f o = closeEvents i f kind o := by
  cases o with
  | none => exact hnone
  | some a => exact hsome a

/-- The trended values of a scan event, by the features' results (R87). -/
theorem trendedValues_eq (c : Card) (k : Slot) (i : Fin 4) : trendedValues c k i =
    featuresInOrder.filterMap fun f => match c.features[f], featureResult c k i f with
      | some x, some .missing => if x.trended then some { feature := f, w := none } else none
      | some x, some (.found _ _ w) => if x.trended then some { feature := f, w := some w } else none
      | _, _ => none := by
  unfold trendedValues
  congr 1
  funext f
  cases c.features[f] with
  | none => rfl
  | some x =>
    cases featureResult c k i f with
    | none => rfl
    | some r => cases r <;> rfl

/-- A result of a present feature is missing, in tolerance, or out on a side (R79). -/
theorem featureResult_cases {c : Card} (k : Slot) (i : Fin 4) {f : Fin 32} {x : Feature} (hx : c.features[f] = some x) :
    featureResult c k i f = some .missing ∨ (∃ h w, featureResult c k i f = some (.found .inside h w))
      ∨ ∃ h w side, featureResult c k i f = some (.found (match side with | Side.low => .low | .high => .high) h w) := by
  unfold featureResult
  rw [hx]
  simp only
  split
  · exact .inl rfl
  · next h _ =>
    cases hclass : classify x.limits (coldValue h (coefficient c.thermal k.capture[i].band) k.capture[i].temperature) with
    | inside => exact .inr (.inl ⟨_, _, rfl⟩)
    | low => exact .inr (.inr ⟨_, _, .low, rfl⟩)
    | high => exact .inr (.inr ⟨_, _, .high, rfl⟩)

/-- Settles O36: runs of one kind after another, each kind of result, and the records and events of a strand. -/
theorem outRunsOpenAndInRunsCloseZones : Obligations.OutRunsOpenAndInRunsCloseZones := by
  unfold Obligations.OutRunsOpenAndInRunsCloseZones
  refine ⟨fun k side x w rs p hk hk15 hp => ?_, fun k xs p z hk hk15 hzone hnone => ?_, fun p limit m q run hnone hsome =>
    ⟨Persistence.missed_opens hnone hsome, Persistence.missed_counts hnone hsome⟩, fun p x =>
    ⟨Persistence.endMiss_sighted x, fun r hblind hr => Persistence.endMiss_blind x hblind hr⟩, fun p k x =>
    ⟨Persistence.inResult_shut k x, fun z run hzone hnone hsome => ⟨fun hrun => ?_, fun hrun => ?_⟩⟩,
    fun p k side sides x w run hside hnone hsome => ?_, fun c k i ps f after hafter => ?_,
    fun c k i ps opening own blindOpen blindClose dimensionClose hempty hevents habsent hpresent => ?_⟩
  · have hsince : OutSince k x ((x, w) :: rs) p := by
      rw [hp]
      exact (OutSince.first k side x w).all side hk15 rs
    refine ⟨hsince.opened, fun z hz => ?_⟩
    obtain ⟨hstart, hworst, hall⟩ := hsince.zone z hz
    exact ⟨hstart, hworst, hall⟩
  · have hopen := foldl_inResult_open (n := 0) xs hk15 hk hzone (fun _ => rfl) fun r hr => by
      rw [hnone] at hr
      cases hr
    rw [Nat.zero_add] at hopen
    rw [hopen]
    refine ⟨?_, fun hlt => if_pos hlt⟩
    split
    · next hlt => exact iff_of_true rfl hlt
    · next hge => exact iff_of_false Bool.false_ne_true hge
  · rw [Persistence.inResult_run hzone hnone hsome, if_neg (Std.not_le.mpr hrun)]
  · rw [Persistence.inResult_run hzone hnone hsome, if_pos hrun]
    rfl
  · have hrun := OutRun.extend_eq hside hnone hsome
    exact ⟨Persistence.outResult_opens hrun, Persistence.outResult_counts hrun,
      fun z hz => ⟨Persistence.outResult_worsens hrun hz, Persistence.outResult_keeps hrun hz⟩⟩
  · have hget : after = (resultOn c k i f (skipsOn c k i f ps[f]).1).1 := by
      rw [hafter, persistenceAfter, Fin.getElem_fin, Vector.getElem_ofFn]
    refine ⟨fun hnone => ?_, fun x p hx hp hp' => ?_⟩
    · rw [hget, skipsOn_absent k i _ hnone, resultOn_absent k i _ hnone]
    · rw [skipsOn_record hx hp hp'] at hget
      refine ⟨fun hr => ?_, fun h w hr => ?_, fun h w side excess hr hexcess => ?_⟩
      · rw [hget, resultOn_found p hx hr]
        rfl
      · rw [hget, resultOn_found p hx hr]
        rfl
      · rw [hget, resultOn_out p hx hr hexcess]
  · have hopening (f : Fin 32) : opening f = (skipsOn c k i f ps[f]).2 := by
      cases hx : c.features[f] with
      | none => rw [(habsent f hx).1, skipsOn_absent k i _ hx]
      | some x =>
        obtain ⟨hnone, hsome, -⟩ := hpresent f x hx
        cases hskips : k.skips with
        | none => rw [hnone hskips, skipsOn_none i f _ hskips]
        | some m =>
          rw [hsome m hskips, skipsOn_some i _ hx hskips, blindEvents_eq _ (hempty f).1 fun a => (hevents f a).1]
    have hown (f : Fin 32) : own f = (resultOn c k i f (skipsOn c k i f ps[f]).1).2 := by
      have hclose (o : Option Int) : blindClose f o = closeEvents i f .blind o :=
        closeEvents_eq o (hempty f).2.1 fun a => (hevents f a).2.1
      cases hx : c.features[f] with
      | none => rw [(habsent f hx).2, skipsOn_absent k i _ hx, resultOn_absent k i _ hx]
      | some x =>
        obtain ⟨-, -, hresult⟩ := hpresent f x hx
        obtain ⟨hmissing, hinside, hout⟩ := hresult (skipsOn c k i f ps[f]).1
          (fun hskips => by rw [skipsOn_none i f _ hskips]) (fun m hskips => by rw [skipsOn_some i _ hx hskips])
        obtain hr | ⟨h, w, hr⟩ | ⟨h, w, side, hr⟩ := featureResult_cases k i hx
        · rw [hmissing hr, resultOn_found _ hx hr, blindEvents_eq _ (hempty f).1 fun a => (hevents f a).1]
          rfl
        · rw [hinside h w hr, resultOn_found _ hx hr, hclose,
            closeEvents_eq (kind := .dimension) _ (hempty f).2.2 fun a => (hevents f a).2.2]
          rfl
        · obtain ⟨excess, hexcess⟩ : ∃ excess, side = .low ∧ excess = x.limits.nominal + x.limits.lower - w
              ∨ side = .high ∧ excess = w - (x.limits.nominal + x.limits.upper) := by
            cases side with
            | low => exact ⟨_, .inl ⟨rfl, rfl⟩⟩
            | high => exact ⟨_, .inr ⟨rfl, rfl⟩⟩
          rw [hout h w side excess hr hexcess, resultOn_out _ hx hr hexcess, hclose]
          rfl
    rw [eventsOf, scanEventOf, trendedValues_eq, show opening = _ from funext hopening, show own = _ from funext hown] <;> rfl

end Sys2Proof.Machine
end

section
/-! The geometry of a window's points, the result of a feature, and the evaluation of a slot (R2, R6 to R14, R45, R65, R74 to R79, R86,
R88 to R90). -/

namespace Sys2Proof.Machine

/-! ### Points -/

theorem toList_getD {n : Nat} (v : Vector Int n) (i : Fin n) : v.toList.getD i.val 0 = v[i] := by
  simp [List.getD_eq_getElem?_getD]

/-- The linearized range of a code that lies `f` above the start of a segment (R8, R9). -/
theorem linearize_segment {curve : Vector Int 17} {seg : Fin 16} {f : Nat} {z : Int} (hf : f < 4096)
    (h : Rounds ((curve[seg.succ] - curve[seg.castSucc]) * (f : Int)) 4096 (z - curve[seg.castSucc])) :
    linearize curve (4096 * seg.val + f) = z := by
  have hdiv : (4096 * seg.val + f) / 4096 = seg.val := by omega
  have hmod : (4096 * seg.val + f) % 4096 = f := by omega
  have hlow : curve.toList.getD seg.val 0 = curve[seg.castSucc] := toList_getD curve seg.castSucc
  have hhigh : curve.toList.getD (seg.val + 1) 0 = curve[seg.succ] := toList_getD curve seg.succ
  rw [rounds_iff (by decide)] at h
  simp only [linearize, hdiv, hmod, hlow, hhigh, ← h]
  omega

theorem orient_eq (h : HeadRecord) (x z : Int) : orient h x z =
    (match h.mirrorColumn, h.mirrorRange, h.swap with
      | false, false, false => (x, z)
      | true, false, false => (-x, z)
      | false, true, false => (x, -z)
      | true, true, false => (-x, -z)
      | false, false, true => (z, x)
      | true, false, true => (z, -x)
      | false, true, true => (-z, x)
      | true, true, true => (-z, -x)) := by
  unfold orient
  cases h.mirrorColumn <;> cases h.mirrorRange <;> cases h.swap <;> rfl

theorem servesAt_iff (h : HeadRecord) (i position : Fin 4) :
    servesAt h i position = true ↔ h.enabled = true ∧ h.strand = i ∧ h.position = position := by
  simp only [servesAt, Bool.and_eq_true, beq_iff_eq, and_assoc]

theorem servingHead_of_none {c : Card} {i position : Fin 4}
    (h : ∀ j : Fin 8, ¬ (c.heads[j].enabled = true ∧ c.heads[j].strand = i ∧ c.heads[j].position = position)) :
    servingHead c i position = none := by
  rw [servingHead, List.find?_eq_none]
  exact fun j _ hj => h j ((servesAt_iff _ i position).mp hj)

theorem servingHead_of_unique {c : Card} {i position : Fin 4} {j : Fin 8}
    (hj : c.heads[j].enabled = true ∧ c.heads[j].strand = i ∧ c.heads[j].position = position)
    (honly : ∀ m : Fin 8, c.heads[m].enabled = true ∧ c.heads[m].strand = i ∧ c.heads[m].position = position → m = j) :
    servingHead c i position = some j := by
  cases hfind : servingHead c i position with
  | none => exact absurd ((servesAt_iff _ i position).mpr hj) (List.find?_eq_none.mp hfind j (mem_headsInOrder j))
  | some m =>
    have hm := List.find?_some (p := fun m => servesAt c.heads[m] i position) hfind
    rw [honly m ((servesAt_iff _ i position).mp hm)]

theorem pointSet_unserved {c : Card} {i : Fin 4} {p : Place} (lines : List Line) (h : servingHead c i p.position = none) :
    pointSet c lines i p = [] := by
  rw [pointSet, h]

theorem pointSet_without_line {c : Card} {i : Fin 4} {p : Place} {lines : List Line} {j : Fin 8}
    (h : servingHead c i p.position = some j) (hnone : ∀ l ∈ lines, l.head ≠ j) : pointSet c lines i p = [] := by
  have hfind : lines.find? (fun l => l.head == j) = none :=
    List.find?_eq_none.mpr fun l hl hj => hnone l hl (beq_iff_eq.mp hj)
  simp only [pointSet, h, hfind]

/-- The points of a window, from the first line of the head that serves its position (R14). -/
theorem pointSet_of_line {c : Card} {i : Fin 4} {p : Place} {before after : List Line} {l : Line} {j : Fin 8}
    (h : servingHead c i p.position = some j) (hl : l.head = j) (hbefore : ∀ m ∈ before, m.head ≠ j) :
    pointSet c (before ++ l :: after) i p = ((List.range l.codes.length).filter fun column =>
        decide (p.window.first ≤ column ∧ column ≤ p.window.last ∧ 1 ≤ l.codes.getD column 0 ∧ l.codes.getD column 0 ≤ 65534)).map
      fun column => framePoint c.heads[j] c.curves[j] column (l.codes.getD column 0) := by
  have hfind : (before ++ l :: after).find? (fun l => l.head == j) = some l := by
    rw [List.find?_append, List.find?_eq_none.mpr fun m hm hj => hbefore m hm (beq_iff_eq.mp hj), Option.none_or,
      List.find?_cons_of_pos (p := fun l : Line => l.head == j) (beq_iff_eq.mpr hl)]
  simp only [pointSet, h, hfind]
  rw [pointsFrom_eq, List.range_eq_range']
  simp only [Nat.sub_zero]

/-! ### The result of a feature -/

theorem windowPoints_of_few {c : Card} {lines : List Line} {i : Fin 4} {n : Nat} {p : Place} (h : (pointSet c lines i p).length < n) :
    windowPoints c lines i n p = none := if_pos h

theorem windowPoints_of_enough {c : Card} {lines : List Line} {i : Fin 4} {n : Nat} {p : Place}
    (h : n ≤ (pointSet c lines i p).length) : windowPoints c lines i n p = some (pointSet c lines i p) := if_neg (Std.not_lt.mpr h)

/-- A value that is a rounded quotient has a divisor above 0. -/
theorem Rounds.pos {a : Int} {b : Nat} {q : Int} (h : Rounds a b q) : 0 < b := by
  obtain ⟨hle, heq⟩ := h
  refine Nat.pos_of_ne_zero ?_
  rintro rfl
  have hzero : q * ((0 : Nat) : Int) = 0 := Int.mul_zero q
  rw [hzero] at hle heq
  have := heq (by omega)
  omega

theorem levelOf_eq {vs : List Int} {y : Int} (h : Rounds vs.sum vs.length y) : levelOf vs = y := ((rounds_iff h.pos).mp h).symm

theorem hotValue_missing {c : Card} {lines : List Line} {i : Fin 4} {x : Feature}
    (h : (pointSet c lines i x.placeA).length < x.minPoints
      ∨ x.kind = .gap ∧ ∀ p, x.placeB = some p → (pointSet c lines i p).length < x.minPoints) : hotValue c lines i x = none := by
  obtain h | ⟨hkind, hB⟩ := h
  · cases hkind : x.kind <;> simp only [hotValue, hkind, windowPoints_of_few h]
  · cases hA : windowPoints c lines i x.minPoints x.placeA with
    | none =>
      simp only [hotValue, hkind, hA]
    | some a =>
      cases hplace : x.placeB with
      | none => simp only [hotValue, hkind, hA, hplace]
      | some p => simp only [hotValue, hkind, hA, hplace, windowPoints_of_few (hB p hplace)]

/-- The hot value of a feature whose window A is not MISSING, by its kind (R77, R78). -/
theorem hotValue_found {c : Card} {lines : List Line} {i : Fin 4} {x : Feature} {h : Int}
    (hA : x.minPoints ≤ (pointSet c lines i x.placeA).length) {span : List Int → Prop} {level : Place → Int → Prop}
    (hspan : ∀ us, span us ↔ ∃ a ∈ us, ∃ b ∈ us, (∀ y ∈ us, a ≤ y ∧ y ≤ b) ∧ h = b - a)
    (hlevel : ∀ p y, level p y ↔ Rounds ((pointSet c lines i p).map Prod.snd).sum (pointSet c lines i p).length y)
    (hkind : x.kind = .span ∧ span ((pointSet c lines i x.placeA).map Prod.fst)
      ∨ x.kind = .flat ∧ span ((pointSet c lines i x.placeA).map Prod.snd)
      ∨ x.kind = .level ∧ level x.placeA h
      ∨ x.kind = .gap ∧ ∃ p a b, x.placeB = some p ∧ x.minPoints ≤ (pointSet c lines i p).length ∧ level x.placeA a ∧ level p b
          ∧ h = b - a) : hotValue c lines i x = some h := by
  have hlevelOf (p : Place) (y : Int) (hy : level p y) : levelOf ((pointSet c lines i p).map Prod.snd) = y :=
    levelOf_eq (by rw [List.length_map]; exact (hlevel p y).mp hy)
  have hpoints := windowPoints_of_enough hA
  obtain ⟨hkind, hs⟩ | ⟨hkind, hs⟩ | ⟨hkind, hl⟩ | ⟨hkind, p, a, b, hplace, hB, ha, hb, rfl⟩ := hkind
  · simp only [hotValue, hkind, hpoints, spread_eq _ h ((hspan _).mp hs)]
  · simp only [hotValue, hkind, hpoints, spread_eq _ h ((hspan _).mp hs)]
  · simp only [hotValue, hkind, hpoints, hlevelOf _ _ hl]
  · simp only [hotValue, hkind, hpoints, hplace, windowPoints_of_enough hB, hlevelOf _ _ ha, hlevelOf _ _ hb]

theorem coefficient_eq (t : ThermalSection) (b : Fin 4) : coefficient t b = [t.k0, t.k1, t.k2, t.k3].getD b.val 0 := by
  match b with
  | 0 => rfl
  | 1 => rfl
  | 2 => rfl
  | 3 => rfl

theorem coldValue_eq {h correction temperature : Int} {k : Nat} {t : Nat} (ht : temperature = (t : Int))
    (hr : Rounds (h * (k : Int) * (temperature - 200)) 1000000000 correction) : coldValue h k t = h - correction := by
  subst ht
  rw [coldValue, Machine.correction, (rounds_iff (by decide)).mp hr]

/-- The result of a present feature, by its hot value (R65, R76, R79). -/
theorem featureResult_of_hotValue {c : Card} {k : Slot} {i : Fin 4} {f : Fin 32} {x : Feature} (hx : c.features[f] = some x) :
    (hotValue c k.lines i x = none → featureResult c k i f = some .missing)
    ∧ ∀ h w, hotValue c k.lines i x = some h →
        coldValue h (coefficient c.thermal k.capture[i].band) k.capture[i].temperature = w →
        featureResult c k i f = some (.found (classify x.limits w) h w) := by
  refine ⟨fun hnone => ?_, fun h w hsome hw => ?_⟩
  · rw [featureResult, hx]
    simp only [hnone]
  · rw [featureResult, hx]
    simp only [hsome]
    rw [hw]

/-! ### The evaluation of a slot -/

theorem State.evaluateStrand_of_next {s : State} {v : Evaluation} {k : Slot} {i : Fin 4} {rest : List (Fin 4)}
    (hv : s.engine.evaluation = some v) (hk : s.scan.slots[v.slot] = some k) (htodo : v.todo = i :: rest) (j : Fin 4) :
    s.evaluateStrand j = if i = j then s.withEngine (s.engine.evaluate v k j rest) else s := by
  simp only [State.evaluateStrand, hv]
  rw [hk, htodo]

/-- A slot out of the stale set. -/
theorem stale_without (stale : Vector Bool 4) (i j : Fin 4) : (setAt stale i false)[j] = (stale[j] && decide (j ≠ i)) := by
  rw [setAt_get]
  by_cases h : j = i <;> simp [h]

/-- With no CLOSED slot the oldest, nothing is handed over (R45). -/
theorem State.tryHandOver_of_open {s : State} (hidle : ∀ i, s.scan.holds (fun k => k.phase == .evaluating) i = false)
    (h : ∀ j k, s.scan.oldest (fun _ => true) = some j → s.scan.slots[(j : Fin 4)] = some k → k.phase ≠ .closed) : s.tryHandOver = s := by
  cases holdest : s.scan.oldest fun _ => true with
  | none =>
    unfold State.tryHandOver
    rw [holdest]
    split <;> rfl
  | some j =>
    obtain ⟨k, hk, -⟩ := ScanAssembler.holds_slot (ScanAssembler.oldest_holds holdest)
    rw [State.tryHandOver_oldest hidle holdest hk, if_neg (h j k holdest hk)]

/-- The slot in hand freed, with hand-over to come (R45, R75). -/
def State.freeing (s : State) (v : Evaluation) : State :=
  (s.withScan (s.scan.putSlot v.slot none)).withEngine
    { s.engine with evaluation := none, stale := setAt s.engine.stale v.slot false }

theorem State.endEvaluation_of_done {s : State} {v : Evaluation} (hv : s.engine.evaluation = some v) (htodo : v.todo = []) :
    s.endEvaluation = (s.freeing v).tryHandOver := by
  simp only [State.endEvaluation, hv]
  exact if_pos htodo

/-- The strands that a slot handed over is evaluated for (R74). -/
theorem evaluatedStrands_eq (c : Card) (stale : Bool) (strands : Vector Strand 4) (k : Slot) (phase : Phase) :
    evaluatedStrands c stale strands { k with phase := phase } =
      if k.manual then strandsInOrder.filter fun i => decide (i.val < c.strands)
      else if stale then []
      else strandsInOrder.filter fun i => decide (i.val < c.strands) && strands[i].active
        && decide (0 ≤ k.x) && (match strands[i].tail with
            | some t => decide (k.x < t)
            | none => true) := rfl

/-- Settles O35: the geometry, the results, the strands evaluated one by one, and the slot freed at the end. -/
theorem evaluationWritesResultsAndFreesSlot : Obligations.EvaluationWritesResultsAndFreesSlot := by
  unfold Obligations.EvaluationWritesResultsAndFreesSlot
  refine ⟨fun h curve column seg f x z hf hx hz u v huv => ?_, fun c lines i p serves hserves => ⟨fun hnone => ?_, fun j hj honly => ?_⟩,
    fun c k i f => ⟨featureResult_absent k i, fun x points hx hpoints => ?_⟩, fun s v k i rest noted hpowered hv hk htodo hnoted => ?_,
    fun s v freed hpowered hv hfreed => ?_⟩
  · have horient : orient h (columnCoordinate h column) z = (u, v) := by
      rw [huv, orient_eq, columnCoordinate, ← hx] <;> rfl
    rw [framePoint, linearize_segment hf hz, horient]
  · exact pointSet_unserved lines (servingHead_of_none fun j hj => hnone j ((hserves j).mpr hj))
  · have hserving := servingHead_of_unique ((hserves j).mp hj) fun m hm => honly m ((hserves m).mpr hm)
    refine ⟨fun hnone => pointSet_without_line hserving hnone, fun before l after hlines hl hbefore => ?_⟩
    rw [hlines]
    exact pointSet_of_line hserving hl hbefore
  · obtain ⟨hmissing, hfound⟩ := featureResult_of_hotValue (k := k) (i := i) hx
    simp only [hpoints]
    refine ⟨fun hfew => hmissing (hotValue_missing hfew), fun hA h w correction span level hspan hlevel hkind hcorrection hw => ?_⟩
    refine hfound h w (hotValue_found hA hspan hlevel hkind) ?_
    rw [coefficient_eq, hw]
    exact coldValue_eq rfl hcorrection
  · have hexec (j : Fin 4) : exec (.strandEvaluation j) s = .next (s.evaluateStrand j) :=
      State.event_powered (State.evaluateStrand j) hpowered
    have hnext := State.evaluateStrand_of_next hv hk htodo
    refine ⟨fun htrack => ?_, fun htrack => ?_, fun j hj => ?_⟩
    · rw [hexec, hnext, if_pos rfl, SectionEngine.evaluate, if_neg (by rw [htrack]; decide), hnoted]
      rfl
    · rw [hexec, hnext, if_pos rfl, SectionEngine.evaluate, if_pos htrack, hnoted]
      rfl
    · rw [hexec, hnext, if_neg (Ne.symm hj)]
  · have hexec : exec .slotEvaluationEnd s = .next s.endEvaluation := State.event_powered State.endEvaluation hpowered
    rw [hexec]
    refine ⟨fun htodo => ?_, fun htodo hidle => ⟨fun j k todo holdest hk hclosed hlist => ?_, fun hnone => ?_⟩⟩
    · simp only [State.endEvaluation, hv]
      rw [if_neg htodo]
    · subst hfreed
      rw [State.endEvaluation_of_done hv htodo, State.tryHandOver_oldest (s := s.freeing v) hidle holdest hk, if_pos hclosed]
      have htodos : todo = evaluatedStrands s.store.card (setAt s.engine.stale v.slot false)[j] s.tracker.strands
          { k with phase := .evaluating } := by
        rw [hlist, stale_without]
        exact (evaluatedStrands_eq _ _ _ _ _).symm
      rw [htodos]
      rfl
    · subst hfreed
      rw [State.endEvaluation_of_done hv htodo, State.tryHandOver_of_open (s := s.freeing v) hidle hnone]
      rfl

end Sys2Proof.Machine
end

section
/-! The record of a length: its bounds, mean temperature and cold length, its candidates in gathering order and the zone entries kept
of them, its verdict and its reasons (R66, R67, R116, R117, R120, R122 to R127). -/

namespace Sys2Proof.Machine

/-! ### Sorting -/

/-- A stable sort orders a list by a relation that the test decides for each of its pairs, taken as they stand in the list. -/
theorem sortBy_pairwise {α : Type} {le : α → α → Bool} {R : α → α → Prop} (htrans : ∀ a b c, R a b → R b c → R a c) {l : List α}
    (hdecides : l.Pairwise fun x y => (le x y = true → R x y) ∧ (le x y = false → R y x)) : (sortBy le l).Pairwise R := by
  induction l with
  | nil => exact List.Pairwise.nil
  | cons x rest ih =>
    obtain ⟨hx, hrest⟩ := List.pairwise_cons.mp hdecides
    have hmem {y : α} (hy : y ∈ sortBy le rest) : y ∈ rest := (sortBy_perm le rest).mem_iff.mp hy
    exact insertBy_pairwise htrans x (fun y hy => (hx y (hmem hy)).1) (fun y hy => (hx y (hmem hy)).2) (ih hrest)

/-- The entry starts first, or starts equal and was gathered first (R125). -/
def StartsFirst (a b : ClosedZone × Nat) : Prop := a.1.start < b.1.start ∨ a.1.start = b.1.start ∧ a.2 < b.2

/-- The entry has the higher severity, or has the same one and starts first (R125). -/
def Outranks (a b : ClosedZone × Nat) : Prop :=
  severityRank b.1.severity < severityRank a.1.severity ∨ severityRank b.1.severity = severityRank a.1.severity ∧ StartsFirst a b

theorem StartsFirst.trans (a b c : ClosedZone × Nat) : StartsFirst a b → StartsFirst b c → StartsFirst a c := by
  unfold StartsFirst
  omega

theorem Outranks.trans (a b c : ClosedZone × Nat) : Outranks a b → Outranks b c → Outranks a c := by
  unfold Outranks StartsFirst
  omega

/-- The ranks of two severities are equal only where the severities are (R125). -/
theorem severityRank_inj {a b : Severity} : severityRank b = severityRank a ↔ a = b := by
  cases a <;> cases b <;> decide

theorem ranksBefore_iff {a b : ClosedZone × Nat} :
    ranksBefore a b = true ↔ severityRank b.1.severity < severityRank a.1.severity
      ∨ severityRank b.1.severity = severityRank a.1.severity ∧ a.1.start ≤ b.1.start := by
  simp only [ranksBefore, Bool.or_eq_true, Bool.and_eq_true, decide_eq_true_eq, beq_iff_eq, severityRank_inj]

theorem listedBefore_iff {a b : ClosedZone × Nat} :
    listedBefore a b = true ↔ a.1.start < b.1.start ∨ a.1.start = b.1.start ∧ a.2 ≤ b.2 := by
  simp only [listedBefore, Bool.or_eq_true, Bool.and_eq_true, decide_eq_true_eq]

/-- Of two entries that stand in gathering order, the test of R125 puts the one that outranks the other first. -/
theorem ranksBefore_decides {a b : ClosedZone × Nat} (hab : a.2 < b.2) :
    (ranksBefore a b = true → Outranks a b) ∧ (ranksBefore a b = false → Outranks b a) := by
  rw [← Bool.not_eq_true, ranksBefore_iff]
  unfold Outranks StartsFirst
  omega

theorem listedBefore_decides {a b : ClosedZone × Nat} (hab : a.2 ≠ b.2) :
    (listedBefore a b = true → StartsFirst a b) ∧ (listedBefore a b = false → StartsFirst b a) := by
  rw [← Bool.not_eq_true, listedBefore_iff]
  unfold StartsFirst
  omega

/-! ### Zone entries -/

/-- The candidates that a record keeps, each with its place in gathering order, before they are listed (R125). -/
def keptCandidates (cs : List ClosedZone) : List (ClosedZone × Nat) :=
  if cs.length ≤ zonePlaces then cs.zipIdx else (sortBy ranksBefore cs.zipIdx).take zonePlaces

theorem zoneEntries_eq (cs : List ClosedZone) : zoneEntries cs = (sortBy listedBefore (keptCandidates cs)).map Prod.fst := rfl

theorem zipIdx_pairwise (cs : List ClosedZone) : cs.zipIdx.Pairwise fun a b => a.2 < b.2 := by
  rw [← List.pairwise_map (f := Prod.snd) (R := (· < ·)), List.zipIdx_map_snd]
  exact List.pairwise_lt_range'

theorem ranked_perm (cs : List ClosedZone) : (sortBy ranksBefore cs.zipIdx).Perm cs.zipIdx := sortBy_perm _ _

theorem ranked_pairwise (cs : List ClosedZone) : (sortBy ranksBefore cs.zipIdx).Pairwise Outranks :=
  sortBy_pairwise Outranks.trans ((zipIdx_pairwise cs).imp ranksBefore_decides)

theorem keptCandidates_of_few {cs : List ClosedZone} (h : cs.length ≤ zonePlaces) : keptCandidates cs = cs.zipIdx := if_pos h

theorem keptCandidates_of_many {cs : List ClosedZone} (h : ¬ cs.length ≤ zonePlaces) :
    keptCandidates cs = (sortBy ranksBefore cs.zipIdx).take zonePlaces := if_neg h

theorem keptCandidates_length (cs : List ClosedZone) : (keptCandidates cs).length = min 12 cs.length := by
  by_cases hfew : cs.length ≤ zonePlaces
  · rw [keptCandidates_of_few hfew, List.length_zipIdx]
    exact (Nat.min_eq_right hfew).symm
  · rw [keptCandidates_of_many hfew, List.length_take, (ranked_perm cs).length_eq, List.length_zipIdx, zonePlaces]

theorem keptCandidates_subset (cs : List ClosedZone) {e : ClosedZone × Nat} (he : e ∈ keptCandidates cs) : cs[e.2]? = some e.1 := by
  rw [← List.mem_zipIdx_iff_getElem?]
  by_cases hfew : cs.length ≤ zonePlaces
  · exact keptCandidates_of_few hfew ▸ he
  · rw [keptCandidates_of_many hfew] at he
    exact (ranked_perm cs).mem_iff.mp (List.mem_of_mem_take he)

/-- The places in gathering order are all different. -/
theorem keptCandidates_places (cs : List ClosedZone) : (keptCandidates cs).Pairwise fun a b => a.2 ≠ b.2 := by
  have hzip : cs.zipIdx.Pairwise fun a b => a.2 ≠ b.2 := (zipIdx_pairwise cs).imp Nat.ne_of_lt
  by_cases hfew : cs.length ≤ zonePlaces
  · rw [keptCandidates_of_few hfew]
    exact hzip
  · rw [keptCandidates_of_many hfew]
    exact ((ranked_perm cs).pairwise_iff (fun h => h.symm) |>.mpr hzip).sublist (List.take_sublist _ _)

/-- A candidate left out is outranked by every one kept (R125). -/
theorem keptCandidates_outrank (cs : List ClosedZone) {x e : ClosedZone × Nat} (hx : cs[x.2]? = some x.1)
    (hout : x ∉ keptCandidates cs) (he : e ∈ keptCandidates cs) : Outranks e x := by
  have hzip : x ∈ cs.zipIdx := List.mem_zipIdx_iff_getElem?.mpr hx
  by_cases hfew : cs.length ≤ zonePlaces
  · rw [keptCandidates_of_few hfew] at hout
    exact absurd hzip hout
  · rw [keptCandidates_of_many hfew] at hout he
    have hranked := ranked_pairwise cs
    have hmem := (ranked_perm cs).mem_iff.mpr hzip
    rw [← List.take_append_drop zonePlaces (sortBy ranksBefore cs.zipIdx)] at hranked hmem
    obtain hin | hlater := List.mem_append.mp hmem
    · exact absurd hin hout
    · exact (List.pairwise_append.mp hranked).2.2 e he x hlater

/-- The zone entries of a record are the candidates kept, listed by start (R125). -/
theorem zoneEntries_spec (cs : List ClosedZone) :
    ∃ kept : List (ClosedZone × Nat), zoneEntries cs = kept.map Prod.fst ∧ kept.length = min 12 cs.length
      ∧ (∀ e ∈ kept, cs[e.2]? = some e.1) ∧ kept.Pairwise StartsFirst
      ∧ ∀ x, cs[x.2]? = some x.1 → x ∉ kept → ∀ e ∈ kept, Outranks e x := by
  have hperm : (sortBy listedBefore (keptCandidates cs)).Perm (keptCandidates cs) := sortBy_perm _ _
  refine ⟨sortBy listedBefore (keptCandidates cs), zoneEntries_eq cs, hperm.length_eq.trans (keptCandidates_length cs),
    fun e he => keptCandidates_subset cs (hperm.mem_iff.mp he),
    sortBy_pairwise StartsFirst.trans ((keptCandidates_places cs).imp listedBefore_decides), fun x hx hout e he => ?_⟩
  exact keptCandidates_outrank cs hx (fun h => hout (hperm.mem_iff.mpr h)) (hperm.mem_iff.mp he)

/-! ### Mean temperature and cold length -/

theorem Rounds.nonneg {a b : Nat} {q : Int} (h : Rounds a b q) : 0 ≤ q := by
  have hpos := h.pos
  obtain ⟨hle, -⟩ := h
  refine Int.not_lt.mp fun hneg => ?_
  have hmul : q * (b : Int) ≤ -1 * (b : Int) := Int.mul_le_mul_of_nonneg_right (Int.le_sub_one_of_lt hneg) (Int.natCast_nonneg b)
  omega

theorem meanTemperature_rounds {th : ThermalRecord} {st : Strand} (h : 0 < st.scanCount) :
    Rounds st.tempSum st.scanCount (meanTemperature th st) := by
  have hr := roundDiv_rounds st.tempSum st.scanCount h
  rw [meanTemperature, if_pos h, Int.toNat_of_nonneg hr.nonneg]
  exact hr

theorem meanTemperature_of_no_scan {th : ThermalRecord} {st : Strand} (h : st.scanCount = 0) : meanTemperature th st = th.temperature := by
  rw [meanTemperature, if_neg (by omega)]

theorem coldLength_rounds (t : ThermalSection) (hot : Int) (x : Nat) :
    Rounds (hot * ([t.k0, t.k1, t.k2, t.k3].getD (plainBand t x).val 0 : Nat) * ((x : Int) - 200)) 1000000000
      (hot - coldLength t hot x) := by
  rw [coldLength, coldValue, Int.sub_sub_self, coefficient_eq]
  exact roundDiv_rounds _ _ (by decide)

theorem lengthFallback_iff {th : ThermalRecord} {st : Strand} :
    lengthFallback th st = true ↔ st.fallbackMark = true ∨ st.scanCount = 0 ∧ th.fallback = true := by
  simp [lengthFallback]

/-! ### Verdict and reasons -/

theorem inTailCrop_iff {line : LineSection} {st : Strand} {lower : Int} :
    inTailCrop line st lower = true ↔ ∃ t, st.tail = some t ∧ t - line.tailCrop ≤ lower := by
  cases htail : st.tail with
  | none => simp [inTailCrop, htail]
  | some t => simp [inTailCrop, htail]

theorem straddles_iff {line : LineSection} {st : Strand} {lower upper : Int} :
    straddles line st lower upper = true ↔ lower < st.nose + line.noseCrop ∧ st.nose + line.noseCrop < upper
      ∨ ∃ t, st.tail = some t ∧ lower < t - line.tailCrop ∧ t - line.tailCrop < upper := by
  cases htail : st.tail with
  | none => simp [straddles, htail]
  | some t => simp [straddles, htail]

theorem ClosedZone.severe_iff {z : ClosedZone} : z.severe = true ↔ z.severity ≠ .minor := by simp [ClosedZone.severe]

/-- A reason of a class holds when a severe candidate shows that class (R127). -/
theorem any_shows_iff {cs : List ClosedZone} {cls : ZoneClass} {among : ClosedZone → Bool} :
    (cs.any fun z => z.severe && z.shows cls (among z)) = true
      ↔ ∃ z ∈ cs, z.severity ≠ .minor ∧ (z.cls = cls ∨ z.cls = .merged ∧ among z = true) := by
  simp only [List.any_eq_true, Bool.and_eq_true, ClosedZone.severe_iff, ClosedZone.shows, Bool.or_eq_true, beq_iff_eq]

theorem verdictOf_reject {line : LineSection} {fs : Failsafe} {o : Origin} {st : Strand} {lower upper : Int} {cs : List ClosedZone}
    (h : fs = .failsafe ∨ st.cutLost = true ∨ o = .withdrawn ∨ o = .closedRunning) : verdictOf line fs o st lower upper cs = .reject := by
  unfold verdictOf
  obtain rfl | hlost | rfl | rfl := h
  · rfl
  · rw [if_pos hlost, ite_self]
  · simp only [ite_self]
  · simp only [ite_self]

section Sound

variable {line : LineSection} {st : Strand} {lower upper : Int} {cs : List ClosedZone}

theorem verdictOf_ending (hlost : st.cutLost = false) : verdictOf line .normal .closedEnding st lower upper cs = .tail := by
  simp [verdictOf, hlost]

/-- The cases of R126 for a length that a cut formed, outside FAILSAFE and with no cut lost. -/
theorem verdictOf_cut (hlost : st.cutLost = false) :
    verdictOf line .normal .cut st lower upper cs =
      if upper ≤ st.nose + line.noseCrop then .nose
      else if inTailCrop line st lower then .tail
      else if straddles line st lower upper then .reject
      else if cs.any ClosedZone.severe then .reject
      else if upper - lower < line.minLength then .short
      else .accept := by
  simp [verdictOf, hlost]

variable (hlost : st.cutLost = false)
include hlost

theorem verdictOf_nose (h : upper ≤ st.nose + line.noseCrop) : verdictOf line .normal .cut st lower upper cs = .nose := by
  rw [verdictOf_cut hlost, if_pos h]

theorem verdictOf_tail (hnose : st.nose + line.noseCrop < upper) (h : inTailCrop line st lower = true) :
    verdictOf line .normal .cut st lower upper cs = .tail := by
  rw [verdictOf_cut hlost, if_neg (Std.not_le.mpr hnose), if_pos h]

theorem verdictOf_straddling (hnose : st.nose + line.noseCrop < upper) (htail : ¬ inTailCrop line st lower = true)
    (h : straddles line st lower upper = true) : verdictOf line .normal .cut st lower upper cs = .reject := by
  rw [verdictOf_cut hlost, if_neg (Std.not_le.mpr hnose), if_neg htail, if_pos h]

theorem verdictOf_inside (hnose : st.nose + line.noseCrop < upper) (htail : ¬ inTailCrop line st lower = true)
    (h : ¬ straddles line st lower upper = true) :
    verdictOf line .normal .cut st lower upper cs =
      if cs.any ClosedZone.severe then .reject else if upper - lower < line.minLength then .short else .accept := by
  rw [verdictOf_cut hlost, if_neg (Std.not_le.mpr hnose), if_neg htail, if_neg h]

end Sound

/-! ### The record -/

/-- The candidates in gathering order, written out (R116, R117, R124). -/
theorem candidates_spec (c : Card) (upper : Int) (st : Strand) :
    ∃ severity : Fin 32 → Severity, (∀ f x, c.features[f] = some x → severity f = x.limits.severity.severity)
      ∧ candidates c upper st = ((st.closed.filter fun z => decide (z.start < upper)).map fun z => { z with finish := min z.finish upper })
        ++ (featuresInOrder.filterMap fun f => st.dimensions[f].bind fun o => if o.start < upper then some
            { number := o.number, cls := .dimension, feature := some f, severity := severity f, start := o.start, finish := upper,
              sides := some o.sides, worst := some o.worst, billet := none,
              sources := { dimension := true, blind := false, weld := false, stop := false } } else none)
        ++ (featuresInOrder.filterMap fun f => st.blinds[f].bind fun o => if o.start < upper then some
            { number := o.number, cls := .blind, feature := some f, severity := c.line.blindSeverity.severity, start := o.start,
              finish := upper, sides := none, worst := none, billet := none,
              sources := { dimension := false, blind := true, weld := false, stop := false } } else none) := by
  refine ⟨dimensionSeverity c, fun f x hx => by rw [dimensionSeverity, hx], ?_⟩
  have hdimension : dimensionCandidates c upper st = featuresInOrder.filterMap fun f => st.dimensions[f].bind fun o =>
      if o.start < upper then some (o.zone c f upper) else none :=
    congrArg (featuresInOrder.filterMap ·) <| funext fun f => by cases hf : st.dimensions[f] <;> simp only [Option.bind]
  have hblind : blindCandidates c upper st = featuresInOrder.filterMap fun f => st.blinds[f].bind fun o =>
      if o.start < upper then some (o.zone c f upper) else none :=
    congrArg (featuresInOrder.filterMap ·) <| funext fun f => by cases hf : st.blinds[f] <;> simp only [Option.bind]
  rw [candidates, hdimension, hblind]
  rfl

/-- Settles O40: the entries kept are the first 12 of a stable sort by rank, listed by a second sort; the verdict and the reasons
are read off the cases of R126 and R127. -/
theorem verdictIsTheFirstCaseThatApplies : Obligations.VerdictIsTheFirstCaseThatApplies := by
  unfold Obligations.VerdictIsTheFirstCaseThatApplies
  refine ⟨?_, ?_⟩
  · rintro c d th fs o i st upper r cs rank rfl rfl hminor hmajor hcutout
    have hrank (v : Severity) : rank v = severityRank v := by
      cases v with
      | minor => exact hminor
      | major => exact hmajor
      | cutout => exact hcutout
    obtain ⟨hlast, hfirst, hgreatest⟩ := lastBilletOf_spec st.lowerBillet (candidates c upper st)
    obtain ⟨kept, hentries, hlength, hmem, hlisted, hout⟩ := zoneEntries_spec (candidates c upper st)
    obtain ⟨severity, hseverity, hcandidates⟩ := candidates_spec c upper st
    refine ⟨rfl, rfl, meanTemperature_rounds, meanTemperature_of_no_scan, lengthFallback_iff, coldLength_rounds c.thermal _ _, hlast, hfirst,
      hgreatest, rfl, ⟨severity, fun f x hx => ?_, ?_⟩, rfl, kept, hentries, hlength, hmem, hlisted, fun z n hz hn e he => ?_⟩
    · rw [hseverity f x hx]
      cases x.limits.severity <;> rfl
    · rw [hcandidates]
      refine congr (congrArg HAppend.hAppend (congrArg (HAppend.hAppend _) ?_)) ?_
      · refine congrArg (featuresInOrder.filterMap ·) (funext fun f => ?_)
        cases st.dimensions[f] <;> rfl
      · refine congrArg (featuresInOrder.filterMap ·) (funext fun f => ?_)
        cases st.blinds[f] with
        | none => rfl
        | some o => cases c.line.blindSeverity <;> rfl
    · rw [hrank, hrank]
      exact hout (z, n) hz hn e he
  · rintro c d th fs o i st upper r cs severe rfl rfl rfl
    refine ⟨rfl, rfl, rfl, rfl, rfl, verdictOf_reject, ?_, ?_, ?_⟩
    · rintro rfl hlost rfl
      rw [lengthRecord, verdictOf_ending hlost]
    · rintro rfl hlost rfl
      refine ⟨verdictOf_nose hlost, fun hnose => ⟨fun t ht hin => verdictOf_tail hlost hnose (inTailCrop_iff.mpr ⟨t, ht, hin⟩),
        fun htail => ?_⟩⟩
      have hcrop : ¬ inTailCrop c.line st st.lastCut = true := by
        rw [inTailCrop_iff]
        rintro ⟨t, ht, hin⟩
        exact absurd (htail t ht) (Std.not_lt.mpr hin)
      refine ⟨fun hstraddle => verdictOf_straddling hlost hnose hcrop (straddles_iff.mpr ?_), fun hlower hupper => ?_⟩
      · exact hstraddle.imp (fun h => ⟨h, hnose⟩) fun ⟨t, ht, h⟩ => ⟨t, ht, htail t ht, h⟩
      · have hinside : ¬ straddles c.line st st.lastCut upper = true := by
          rw [straddles_iff]
          rintro (⟨h, -⟩ | ⟨t, ht, -, h⟩)
          · exact absurd hlower (Std.not_le.mpr h)
          · exact absurd (hupper t ht) (Std.not_le.mpr h)
        have hverdict := verdictOf_inside (cs := candidates c upper st) hlost hnose hcrop hinside
        exact ⟨fun h => hverdict.trans (if_pos h),
          fun h hshort => hverdict.trans ((if_neg (ne_true_of_eq_false h)).trans (if_pos hshort)),
          fun h hlong => hverdict.trans ((if_neg (ne_true_of_eq_false h)).trans (if_neg (Std.not_lt.mpr hlong)))⟩
    · refine ⟨beq_iff_eq, Iff.rfl, beq_iff_eq, beq_iff_eq, ?_, any_shows_iff, any_shows_iff, any_shows_iff, any_shows_iff⟩
      exact Bool.and_eq_true_iff.trans (and_congr beq_iff_eq straddles_iff)

end Sys2Proof.Machine
end

section
/-! How the fields of a payload are read where they stand: past the fields before them, out of a run of entries of one length each,
bit by bit out of a set, and in each coding of R163. -/

namespace Sys2Proof.Machine

/-! ### Lengths of the codings

`simp` does not use a length that holds by `rfl` alone to discharge the condition of `numberAt_skip`; these do not. -/

@[simp] theorem length_bytes16 (w : Word16) : (bytes16 w).length = 2 := by cases w; rfl

@[simp] theorem length_bytes32 (w : Word32) : (bytes32 w).length = 4 := by cases w; rfl

@[simp] theorem length_le16 (n : Nat) : (le16 n).length = 2 := by simp [le16]

@[simp] theorem length_le32 (n : Nat) : (le32 n).length = 4 := by simp [le32]

@[simp] theorem length_le64 (n : Nat) : (le64 n).length = 8 := by simp [le64]

@[simp] theorem length_leInt (x : Int) : (leInt x).length = 4 := by simp [leInt]

/-! ### A number past the fields before it -/

@[simp] theorem numberAt_skip {a b : List Byte} {offset size : Nat} (h : a.length ≤ offset) :
    numberAt (a ++ b) offset size = numberAt b (offset - a.length) size := numberAt_right a b size h

@[simp] theorem numberAt_skip_byte {b : Byte} {bs : List Byte} {offset size : Nat} (h : 1 ≤ offset) :
    numberAt (b :: bs) offset size = numberAt bs (offset - 1) size := numberAt_past b bs size h

@[simp] theorem numberAt_head_byte (b : Byte) (bs : List Byte) : numberAt (b :: bs) 0 1 = b.toNat := numberAt_byte b bs

@[simp] theorem numberAt_head_pair (a b : Byte) (bs : List Byte) : numberAt (a :: b :: bs) 0 2 = a.toNat + 256 * b.toNat := by
  simp [numberAt]

@[simp] theorem numberAt_head_bytes32 (w : Word32) (bs : List Byte) : numberAt (bytes32 w ++ bs) 0 4 = w.toNat := numberAt_bytes32 w bs

@[simp] theorem numberAt_head_le16 (n : Nat) (bs : List Byte) : numberAt (le16 n ++ bs) 0 2 = n % 65536 := numberAt_le16 n bs

@[simp] theorem numberAt_head_le32 (n : Nat) (bs : List Byte) : numberAt (le32 n ++ bs) 0 4 = n % 4294967296 := numberAt_le32 n bs

@[simp] theorem numberAt_head_le64 (n : Nat) (bs : List Byte) : numberAt (le64 n ++ bs) 0 8 = n % 18446744073709551616 :=
  numberAt_le64 n bs

@[simp] theorem numberAt_head_leInt (x : Int) (bs : List Byte) : numberAt (leInt x ++ bs) 0 4 = signed32 x := numberAt_leInt x bs

@[simp] theorem numberAt_last_le16 (n : Nat) : numberAt (le16 n) 0 2 = n % 65536 := by
  rw [← List.append_nil (le16 n), numberAt_le16]

@[simp] theorem numberAt_last_le32 (n : Nat) : numberAt (le32 n) 0 4 = n % 4294967296 := by
  rw [← List.append_nil (le32 n), numberAt_le32]

@[simp] theorem numberAt_last_le64 (n : Nat) : numberAt (le64 n) 0 8 = n % 18446744073709551616 := by
  rw [← List.append_nil (le64 n), numberAt_le64]

@[simp] theorem numberAt_last_leInt (x : Int) : numberAt (leInt x) 0 4 = signed32 x := by
  rw [← List.append_nil (leInt x), numberAt_leInt]

@[simp] theorem numberAt_last_bytes32 (w : Word32) : numberAt (bytes32 w) 0 4 = w.toNat := by
  rw [← List.append_nil (bytes32 w), numberAt_bytes32]

/-! ### A number out of a run of entries -/

/-- A number of the `n`-th of entries of one length each, at its offset in the entry. -/
theorem numberAt_entry {α : Type} {f : α → List Byte} {size : Nat} (hf : ∀ x, (f x).length = size) (rest : List Byte) {k m : Nat}
    (hk : k + m ≤ size) {x : α} : ∀ {xs : List α} {n : Nat}, xs[n]? = some x →
      numberAt (xs.flatMap f ++ rest) (size * n + k) m = numberAt (f x) k m
  | y :: ys, 0, hx => by
    obtain rfl : y = x := Option.some.inj hx
    rw [Nat.mul_zero, Nat.zero_add, List.flatMap_cons, List.append_assoc, numberAt_left _ _ (by rw [hf]; exact hk)]
  | y :: ys, n + 1, hx => by
    have hpast : (f y).length ≤ size * (n + 1) + k := by rw [hf, Nat.mul_succ]; omega
    have hback : size * (n + 1) + k - (f y).length = size * n + k := by rw [hf, Nat.mul_succ]; omega
    rw [List.flatMap_cons, List.append_assoc, numberAt_right _ _ _ hpast, hback]
    exact numberAt_entry hf rest hk hx

theorem Vector.toList_get {α : Type} {n : Nat} (v : Vector α n) (i : Fin n) : v.toList[i.val]? = some v[i] := by simp

section Runs

variable {α : Type} {n : Nat} (v : Vector α n) (i : Fin n) (rest : List Byte)

theorem numberAt_run {f : α → List Byte} {size : Nat} (hf : ∀ x, (f x).length = size) {k m : Nat} (hk : k + m ≤ size) :
    numberAt (v.toList.flatMap f ++ rest) (size * i.val + k) m = numberAt (f v[i]) k m :=
  numberAt_entry hf rest hk (Vector.toList_get v i)

theorem numberAt_run_start {f : α → List Byte} {size : Nat} (hf : ∀ x, (f x).length = size) {m : Nat} (hm : m ≤ size) :
    numberAt (v.toList.flatMap f ++ rest) (size * i.val) m = numberAt (f v[i]) 0 m :=
  numberAt_run v i rest hf (Nat.le_trans (Nat.le_of_eq (Nat.zero_add m)) hm)

@[simp] theorem numberAt_codes (f : α → Byte) : numberAt (v.toList.map f ++ rest) i.val 1 = (f v[i.val]).toNat := by
  have h := numberAt_run_start v i rest (f := fun x => [f x]) (size := 1) (m := 1) (fun _ => rfl) (Nat.le_refl 1)
  rwa [← List.map_eq_flatMap, Nat.one_mul, numberAt_byte] at h

end Runs

/-- The `n`-th of the 2-byte numbers of a list. -/
theorem numberAt_le16s {xs : List Nat} {n : Nat} (hn : n < xs.length) (rest : List Byte) :
    numberAt (xs.flatMap le16 ++ rest) (2 * n) 2 = xs.getD n 0 % 65536 := by
  have h := numberAt_entry length_le16 rest (Nat.le_refl (0 + 2)) (List.getElem?_eq_getElem hn)
  rw [← List.getElem_eq_getD (h := hn)]
  rwa [Nat.add_zero, numberAt_last_le16] at h

/-- The `n`-th of the 4-byte numbers of a list. -/
theorem numberAt_le32s {xs : List Nat} {n : Nat} (hn : n < xs.length) (rest : List Byte) :
    numberAt (xs.flatMap le32 ++ rest) (4 * n) 4 = xs.getD n 0 % 4294967296 := by
  have h := numberAt_entry length_le32 rest (Nat.le_refl (0 + 4)) (List.getElem?_eq_getElem hn)
  rw [← List.getElem_eq_getD (h := hn)]
  rwa [Nat.add_zero, numberAt_last_le32] at h

/-! ### Sets bit by bit -/

theorem getLsbD_foldl_twoPow {w n : Nat} (p : Fin n → Bool) (k : Nat) (xs : List (Fin n)) (m : BitVec w) :
    (xs.foldl (fun m i => if p i then m ||| BitVec.twoPow w i.val else m) m).getLsbD k = true
      ↔ m.getLsbD k = true ∨ k < w ∧ ∃ i ∈ xs, i.val = k ∧ p i = true := by
  induction xs generalizing m with
  | nil => simp
  | cons x rest ih =>
    rw [List.foldl_cons, ih]
    cases hx : p x with
    | false =>
      rw [if_neg Bool.false_ne_true]
      simp [hx]
    | true =>
      have hcons : (∃ i ∈ x :: rest, i.val = k ∧ p i = true) ↔ x.val = k ∨ ∃ i ∈ rest, i.val = k ∧ p i = true := by
        simp only [List.mem_cons, or_and_right, exists_or, exists_eq_left, hx, and_true]
      rw [if_pos rfl, BitVec.getLsbD_or, BitVec.getLsbD_twoPow, hcons]
      simp only [Bool.or_eq_true, Bool.and_eq_true, decide_eq_true_eq, and_or_left, or_assoc]
      refine or_congr_right (or_congr_left (and_congr_left fun hk => ?_))
      rw [hk]

/-- The bits of a set held in one byte are its elements. -/
theorem byteMask_getLsbD {n : Nat} (p : Fin n → Bool) {xs : List (Fin n)} (hall : ∀ i, i ∈ xs) (hn : n ≤ 8) (k : Nat) :
    (byteMask xs p).getLsbD k = true ↔ ∃ i : Fin n, i.val = k ∧ p i = true := by
  unfold byteMask
  rw [getLsbD_foldl_twoPow]
  refine ⟨fun h => ?_, fun ⟨i, hi, hp⟩ => .inr ⟨by have := i.isLt; omega, i, hall i, hi, hp⟩⟩
  obtain hzero | ⟨-, i, -, hi⟩ := h
  · simp at hzero
  · exact ⟨i, hi⟩

theorem featureMask_testBit (p : Fin 32 → Bool) (k : Nat) :
    (featureMask p).toNat.testBit k = true ↔ ∃ f : Fin 32, f.val = k ∧ p f = true := by
  rw [BitVec.testBit_toNat]
  unfold featureMask
  rw [getLsbD_foldl_twoPow]
  refine ⟨fun h => ?_, fun ⟨f, hf, hp⟩ => .inr ⟨by have := f.isLt; omega, f, mem_featuresInOrder f, hf, hp⟩⟩
  obtain hzero | ⟨-, f, -, hf⟩ := h
  · simp at hzero
  · exact ⟨f, hf⟩

theorem strandMask_getLsbD (p : Fin 4 → Bool) (i : Fin 4) : (byteMask strandsInOrder p).getLsbD i.val = p i := by
  rw [Bool.eq_iff_iff, byteMask_getLsbD p mem_strandsInOrder (by decide)]
  refine ⟨fun ⟨j, hj, hp⟩ => ?_, fun hp => ⟨i, rfl, hp⟩⟩
  obtain rfl := Fin.ext hj
  exact hp

theorem strandMask_toNat_le (p : Fin 4 → Bool) : (byteMask strandsInOrder p).toNat ≤ 15 := by
  refine Nat.le_of_lt_succ (Nat.lt_pow_two_of_testBit (n := 4) _ fun k hk => ?_)
  rw [BitVec.testBit_toNat, ← Bool.not_eq_true, byteMask_getLsbD p mem_strandsInOrder (by decide)]
  rintro ⟨i, hi, -⟩
  have := i.isLt
  omega

/-! ### The gauge latches -/

theorem resultFields_length (r : Option FeatureResult) : (resultFields r).length = 9 := by
  match r with
  | none => simp [resultFields]
  | some .missing => simp [resultFields]
  | some (.found .inside _ _) => simp [resultFields]
  | some (.found .low _ _) => simp [resultFields]
  | some (.found .high _ _) => simp [resultFields]

theorem resultFields_none : numberAt (resultFields none) 0 1 = 255 ∧ numberAt (resultFields none) 1 4 = 0
    ∧ numberAt (resultFields none) 5 4 = 0 := by
  decide

theorem resultFields_missing : numberAt (resultFields (some .missing)) 0 1 = 3 ∧ numberAt (resultFields (some .missing)) 1 4 = 0
    ∧ numberAt (resultFields (some .missing)) 5 4 = 0 := by
  decide

theorem resultFields_found (cls : Class) (h w : Int) :
    numberAt (resultFields (some (.found cls h w))) 0 1 = [Class.inside, .low, .high].idxOf cls
      ∧ numberAt (resultFields (some (.found cls h w))) 1 4 = signed32 h
      ∧ numberAt (resultFields (some (.found cls h w))) 5 4 = signed32 w := by
  cases cls with
  | inside => exact ⟨numberAt_byte 0 _, by simp [resultFields], by simp [resultFields]⟩
  | low => exact ⟨numberAt_byte 1 _, by simp [resultFields], by simp [resultFields]⟩
  | high => exact ⟨numberAt_byte 2 _, by simp [resultFields], by simp [resultFields]⟩

/-- What GAUGE_READ carries of the results of a record (R171). -/
def gaugeResults (last : Option LastResults) : Vector (Option FeatureResult) 32 :=
  match last with
  | some r => r.features
  | none => Vector.replicate 32 none

/-- What GAUGE_READ carries of a record before its results (R171). -/
def gaugeHead : Option LastResults → List Byte
  | some r => 1 :: le16 r.number ++ leInt r.x ++ le16 r.temperature ++ [byte r.band.val, yesNo r.manual]
  | none => 0 :: le16 0 ++ leInt 0 ++ le16 0 ++ [0, 0]

theorem gaugeFields_eq (last : Option LastResults) :
    gaugeFields last = gaugeHead last ++ (gaugeResults last).toList.flatMap resultFields := by
  cases last <;> rfl

@[simp] theorem gaugeHead_length (last : Option LastResults) : (gaugeHead last).length = 11 := by
  cases last <;> simp [gaugeHead]

theorem gaugeFields_length (last : Option LastResults) : (gaugeFields last).length = 299 := by
  rw [gaugeFields_eq, List.length_append, gaugeHead_length, flatMap_length _ _ resultFields_length, Vector.length_toList]

/-- The result of a feature stands in the 9 bytes of its place (R171). -/
theorem gaugeFields_result (last : Option LastResults) (f : Fin 32) {k m : Nat} (hk : k + m ≤ 9) :
    numberAt (gaugeFields last) (11 + 9 * f.val + k) m = numberAt (resultFields (gaugeResults last)[f]) k m := by
  have hrun := numberAt_run (gaugeResults last) f [] resultFields_length hk
  rw [List.append_nil] at hrun
  rw [gaugeFields_eq, numberAt_right _ _ _ (by rw [gaugeHead_length]; omega), gaugeHead_length, ← hrun]
  congr 1
  omega

/-- The head of a record, read out of the fields of GAUGE_READ (R171). -/
theorem gaugeFields_head (last : Option LastResults) {k m : Nat} (hk : k + m ≤ 11) :
    numberAt (gaugeFields last) k m = numberAt (gaugeHead last) k m := by
  rw [gaugeFields_eq, numberAt_left _ _ (by rw [gaugeHead_length]; exact hk)]

/-- The three numbers of a feature's result stand 11, 12 and 16 bytes after the places of the features before it. -/
theorem gaugeFields_result_numbers (last : Option LastResults) (f : Fin 32) :
    numberAt (gaugeFields last) (11 + 9 * f.val) 1 = numberAt (resultFields (gaugeResults last)[f]) 0 1
      ∧ numberAt (gaugeFields last) (12 + 9 * f.val) 4 = numberAt (resultFields (gaugeResults last)[f]) 1 4
      ∧ numberAt (gaugeFields last) (16 + 9 * f.val) 4 = numberAt (resultFields (gaugeResults last)[f]) 5 4 := by
  refine ⟨gaugeFields_result last f (show 0 + 1 ≤ 9 by decide), ?_, ?_⟩
  · rw [← gaugeFields_result last f (show 1 + 4 ≤ 9 by decide), Nat.add_right_comm]
  · rw [← gaugeFields_result last f (show 5 + 4 ≤ 9 by decide), Nat.add_right_comm]

theorem State.fillsLatch_iff {mask : Byte} {s : State} {i : Fin 4} :
    s.fillsLatch mask i = true ↔ mask.getLsbD i.val = true ∧ s.report.latches[i] = none ∧ s.engine.last[i] ≠ none := by
  simp only [State.fillsLatch, Bool.and_eq_true, and_assoc, Option.isNone_iff_eq_none, Option.isSome_iff_ne_none]

theorem State.gaugeLatch_eq {mask : Byte} (h : mask.toNat ≤ 15) (s : State) :
    s.gaugeLatch mask = (s.withReport { s.report with latches := s.latched mask },
      okReply [byteMask strandsInOrder (s.fillsLatch mask)]) := by
  rw [State.gaugeLatch, if_neg (Std.not_lt.mpr h)]

theorem State.latched_eq (mask : Byte) (s : State) :
    s.latched mask = Vector.ofFn fun i => if (byteMask strandsInOrder (s.fillsLatch mask)).getLsbD i.val then s.engine.last[i]
      else s.report.latches[i] := by
  simp only [strandMask_getLsbD, State.latched]

/-- Settles O56: the bits of the reply are the latches that GAUGE_LATCH fills, and the numbers of a record are read out of its head
and out of the 9 bytes of each feature. -/
theorem gaugeLatchesHoldOneCopy : Obligations.GaugeLatchesHoldOneCopy := by
  unfold Obligations.GaugeLatchesHoldOneCopy
  refine ⟨fun s mask hserves => ⟨fun hmask => State.refuses_of rfl hserves ?_, fun hmask => ?_⟩,
    fun s strand hserves => ⟨fun hstrand => State.refuses_of rfl hserves ?_, fun i hi => ⟨fun r hr => ?_, fun hempty => ?_⟩⟩, ?_⟩
  · exact if_pos hmask
  · refine ⟨byteMask strandsInOrder (s.fillsLatch mask), ?_, strandMask_toNat_le _, fun i => ?_⟩
    · rw [← State.latched_eq]
      exact State.exec_of_served rfl hserves (State.gaugeLatch_eq hmask s)
    · rw [strandMask_getLsbD, State.fillsLatch_iff]
  · simp only [State.gaugeRead, indexOf_of_ge hstrand]
  · refine State.exec_of_served (k := State.gaugeRead strand) rfl hserves ?_
    simp only [State.gaugeRead, indexOf_eq hi, hr]
    rfl
  · refine State.exec_of_served (k := State.gaugeRead strand) rfl hserves ?_
    simp only [State.gaugeRead, indexOf_eq hi, hempty]
    rfl
  · rintro last p rfl
    refine ⟨gaugeFields_length last, ?_, ?_⟩
    · rintro rfl
      refine ⟨fun n hn => ?_, fun f => ?_⟩
      · rw [gaugeFields_head none (show n + 1 ≤ 11 by omega)]
        exact (by decide : ∀ n : Fin 11, numberAt (gaugeHead none) n.val 1 = 0) ⟨n, hn⟩
      · obtain ⟨h0, h1, h5⟩ := gaugeFields_result_numbers none f
        have hnone : (gaugeResults none)[f] = none := Vector.getElem_replicate _
        rw [h0, h1, h5, hnone]
        exact resultFields_none
    · rintro r rfl
      refine ⟨?_, ?_, ?_, ?_, ?_, ?_, fun f => ?_⟩
      · rw [gaugeFields_head _ (by decide)]
        simp [gaugeHead]
      · rw [gaugeFields_head _ (by decide)]
        simp [gaugeHead]
      · rw [gaugeFields_head _ (by decide)]
        simp [gaugeHead]
      · rw [gaugeFields_head _ (by decide)]
        simp [gaugeHead]
      · rw [gaugeFields_head _ (by decide)]
        simp [gaugeHead, byte_index]
      · rw [gaugeFields_head _ (by decide)]
        simp [gaugeHead, yesNo_toNat]
      · obtain ⟨h0, h1, h5⟩ := gaugeFields_result_numbers (some r) f
        rw [h0, h1, h5, show (gaugeResults (some r))[f] = r.features[f] from rfl]
        obtain ⟨habsent, hzero, hzero'⟩ := resultFields_none
        obtain ⟨hmissing, hnought, hnought'⟩ := resultFields_missing
        refine ⟨fun hf => hf ▸ habsent, fun hf => hf ▸ hmissing, fun hf => ?_, fun cls h w hf => hf ▸ resultFields_found cls h w⟩
        obtain hf | hf := hf
        · exact hf ▸ ⟨hzero, hzero'⟩
        · exact hf ▸ ⟨hnought, hnought'⟩

end Sys2Proof.Machine
end

section
/-! The readouts: their replies, and the layout of every payload they carry (R54, R62, R113, R136, R141, R152, R163 to R166, R168,
R176). -/

namespace Sys2Proof.Machine

/-! ### Codes as places in their lists of values (R163 to R166) -/

@[simp] theorem gradeCode_toNat (v : Grade) : (gradeCode v).toNat = [Grade.minor, .major].idxOf v := by cases v <;> rfl

@[simp] theorem kindCode_toNat (v : FeatureKind) : (kindCode v).toNat = [FeatureKind.span, .level, .gap, .flat].idxOf v := by
  cases v <;> rfl

@[simp] theorem pullerCode_toNat (v : Puller) : (pullerCode v).toNat = [Puller.a, .b].idxOf v := by cases v <;> rfl

@[simp] theorem pressCode_toNat (v : Press) : (pressCode v).toNat = [Press.idle, .running, .stopped, .ending].idxOf v := by
  cases v <;> rfl

@[simp] theorem strandCode_toNat (v : StrandState) :
    (strandCode v).toNat = [StrandState.absent, .idle, .nose, .running, .tailing, .ended].idxOf v := by cases v <;> rfl

@[simp] theorem headCode_toNat (v : HeadState) : (headCode v).toNat = [HeadState.offline, .ok, .fault, .blinded].idxOf v := by
  cases v <;> rfl

@[simp] theorem checkCode_toNat (v : CheckResult) :
    (checkCode v).toNat = [CheckResult.none, .pending, .pass, .noLine, .dark, .bright, .sparse].idxOf v := by cases v <;> rfl

@[simp] theorem verdictCode_toNat (v : Verdict) : (verdictCode v).toNat = [Verdict.accept, .reject, .nose, .tail, .short].idxOf v := by
  cases v <;> rfl

@[simp] theorem lastVerdictCode_toNat (v : Option Verdict) : (lastVerdictCode v).toNat
    = [none, some Verdict.accept, some .reject, some .nose, some .tail, some .short].idxOf v := by
  match v with
  | none => rfl
  | some .accept => rfl
  | some .reject => rfl
  | some .nose => rfl
  | some .tail => rfl
  | some .short => rfl

@[simp] theorem failsafeCode_toNat (v : Failsafe) : (failsafeCode v).toNat = [Failsafe.normal, .failsafe].idxOf v := by
  cases v <;> rfl

@[simp] theorem lockCode_toNat (v : Lock) : (lockCode v).toNat = [Lock.unlocked, .held, .fixed].idxOf v := by cases v <;> rfl

@[simp] theorem classCode_toNat (v : ZoneClass) :
    (classCode v).toNat = [ZoneClass.dimension, .blind, .weld, .stop, .merged].idxOf v := by cases v <;> rfl

@[simp] theorem severityCode_toNat (v : Severity) : (severityCode v).toNat = [Severity.minor, .major, .cutout].idxOf v := by
  cases v <;> rfl

@[simp] theorem sidesCode_toNat (v : Sides) : (sidesCode v).toNat = [Sides.low, .high, .both].idxOf v := by cases v <;> rfl

@[simp] theorem bootCode_toNat (b : Option (Fin 8)) : (bootCode b).toNat = (b.map Fin.val).getD 255 := by
  cases b with
  | none => rfl
  | some i => exact byte_index i (by decide)

@[simp] theorem yesNo_toNat' (b : Bool) : (yesNo b).toNat = b.toNat := yesNo_toNat b

@[simp] theorem byte_fin4 (i : Fin 4) : (byte i.val).toNat = i.val := byte_index i (by decide)

@[simp] theorem byte_fin8 (i : Fin 8) : (byte i.val).toNat = i.val := byte_index i (by decide)

@[simp] theorem byte_fin32 (i : Fin 32) : (byte i.val).toNat = i.val := byte_index i (by decide)

/-! ### The records of a card (R62, R136, R166) -/

theorem headFields_layout (h : HeadRecord) (p : List Byte) (hp : p = headFields h) :
    p.length = 22 ∧ numberAt p 0 1 = h.enabled.toNat ∧ numberAt p 1 1 = h.strand.val ∧ numberAt p 2 1 = h.position.val
      ∧ numberAt p 3 1 = h.mirrorColumn.toNat ∧ numberAt p 4 1 = h.mirrorRange.toNat ∧ numberAt p 5 1 = h.swap.toNat
      ∧ numberAt p 6 2 = h.c0 % 65536 ∧ numberAt p 8 2 = h.pitch % 65536 ∧ numberAt p 10 4 = signed32 h.offU
      ∧ numberAt p 14 4 = signed32 h.offV ∧ numberAt p 18 2 = h.minPoints % 65536 ∧ numberAt p 20 1 = h.dark % 256
      ∧ numberAt p 21 1 = h.bright % 256 := by
  subst hp
  simp [headFields, byte_toNat h.dark, byte_toNat h.bright]

@[simp] theorem length_limitsFields (l : Limits) : (limitsFields l).length = 15 := by simp [limitsFields]

@[simp] theorem length_placeBFields (x : Option Place) : (placeBFields x).length = 5 := by cases x <;> simp [placeBFields]

theorem limitsFields_layout (l : Limits) (p : List Byte) (hp : p = limitsFields l) :
    p.length = 15 ∧ numberAt p 0 4 = signed32 l.nominal ∧ numberAt p 4 4 = signed32 l.lower ∧ numberAt p 8 4 = signed32 l.upper
      ∧ numberAt p 12 1 = l.kOpen % 256 ∧ numberAt p 13 1 = l.kClose % 256
      ∧ numberAt p 14 1 = [Grade.minor, .major].idxOf l.severity := by
  subst hp
  simp [limitsFields, byte_toNat]

theorem featureFields_layout (f : Feature) (p : List Byte) (hp : p = featureFields f) :
    p.length = 31 ∧ numberAt p 0 2 = f.featureId % 65536 ∧ numberAt p 2 1 = [FeatureKind.span, .level, .gap, .flat].idxOf f.kind
      ∧ numberAt p 3 1 = f.placeA.position.val ∧ numberAt p 4 2 = f.placeA.window.first % 65536
      ∧ numberAt p 6 2 = f.placeA.window.last % 65536
      ∧ (f.placeB = none → numberAt p 8 1 = 255 ∧ numberAt p 9 2 = 65535 ∧ numberAt p 11 2 = 65535)
      ∧ (∀ b, f.placeB = some b → numberAt p 8 1 = b.position.val ∧ numberAt p 9 2 = b.window.first % 65536
          ∧ numberAt p 11 2 = b.window.last % 65536)
      ∧ numberAt p 13 2 = f.minPoints % 65536 ∧ numberAt p 15 1 = f.trended.toNat ∧ p.drop 16 = limitsFields f.limits := by
  subst hp
  refine ⟨?_, ?_, ?_, ?_, ?_, ?_, fun hb => ?_, fun b hb => ?_, ?_, ?_, ?_⟩
  case refine_7 => simp [featureFields, placeBFields, hb]
  case refine_8 => simp [featureFields, placeBFields, hb]
  case refine_11 => exact List.drop_left' (by simp)
  all_goals simp [featureFields]

theorem thermalSectionFields_layout (t : ThermalSection) (p : List Byte) (hp : p = thermalSectionFields t) :
    p.length = 20 ∧ ∀ n, n < 10 → numberAt p (2 * n) 2
        = [t.u0, t.u1, t.u2, t.k0, t.k1, t.k2, t.k3, t.hysteresis, t.defaultTemp, t.hold].getD n 0 % 65536 := by
  subst hp
  have hfields : thermalSectionFields t
      = [t.u0, t.u1, t.u2, t.k0, t.k1, t.k2, t.k3, t.hysteresis, t.defaultTemp, t.hold].flatMap le16 ++ [] := by
    simp [thermalSectionFields]
  exact ⟨by simp [thermalSectionFields], fun n hn => by rw [hfields, numberAt_le16s hn]⟩

theorem lineSectionFields_layout (l : LineSection) (p : List Byte) (hp : p = lineSectionFields l) :
    p.length = 54
      ∧ (∀ n, n < 8 → numberAt p (4 * n) 4
          = [l.dHead, l.dSaw, l.scanPitch, l.scaleA, l.scaleB, l.weldLead, l.weldLength, l.stopMargin].getD n 0 % 4294967296)
      ∧ numberAt p 32 1 = [Grade.minor, .major].idxOf l.stopSeverity
      ∧ (∀ n, n < 4 → numberAt p (33 + 4 * n) 4 = [l.noseCrop, l.tailCrop, l.minLength, l.mergeGap].getD n 0 % 4294967296)
      ∧ numberAt p 49 2 = l.blindLimit % 65536 ∧ numberAt p 51 1 = [Grade.minor, .major].idxOf l.blindSeverity
      ∧ numberAt p 52 2 = l.lineWait % 65536 := by
  subst hp
  refine ⟨by simp [lineSectionFields], fun n hn => ?_, by simp [lineSectionFields], fun n hn => ?_, by simp [lineSectionFields],
    by simp [lineSectionFields], by simp [lineSectionFields]⟩
  · have hfields : lineSectionFields l
        = [l.dHead, l.dSaw, l.scanPitch, l.scaleA, l.scaleB, l.weldLead, l.weldLength, l.stopMargin].flatMap le32
          ++ (gradeCode l.stopSeverity :: ([l.noseCrop, l.tailCrop, l.minLength, l.mergeGap].flatMap le32
            ++ (le16 l.blindLimit ++ gradeCode l.blindSeverity :: le16 l.lineWait))) := by
      simp [lineSectionFields]
    rw [hfields, numberAt_le32s hn]
  · have hcrops : numberAt (lineSectionFields l) (33 + 4 * n) 4
        = numberAt ([l.noseCrop, l.tailCrop, l.minLength, l.mergeGap].flatMap le32
            ++ (le16 l.blindLimit ++ gradeCode l.blindSeverity :: le16 l.lineWait)) (4 * n) 4 := by
      simp [lineSectionFields, Nat.add_comm 33]
    rw [hcrops, numberAt_le32s hn]

theorem counterFields_layout (c : Counters) (p : List Byte) (hp : p = counterFields c) :
    p.length = 18
      ∧ ∀ n, n < 9 → numberAt p (2 * n) 2 = [c.linkCrc, c.overrun, c.lineCrc, c.duplicate, c.lateLine, c.skipped, c.lateResult,
          c.coarsening, c.lostCut].getD n 0 % 65536 := by
  subst hp
  have hfields : counterFields c = [c.linkCrc, c.overrun, c.lineCrc, c.duplicate, c.lateLine, c.skipped, c.lateResult,
      c.coarsening, c.lostCut].flatMap le16 ++ [] := by
    simp [counterFields]
  exact ⟨by simp [counterFields], fun n hn => by rw [hfields, numberAt_le16s hn]⟩

/-! ### Zone entries, trend entries and length records (R165) -/

theorem sourcesByte_toNat (x : Sources) :
    (sourcesByte x).toNat = x.dimension.toNat + 2 * x.blind.toNat + 4 * x.weld.toNat + 8 * x.stop.toNat := by
  have := Bool.toNat_le x.dimension
  have := Bool.toNat_le x.blind
  have := Bool.toNat_le x.weld
  have := Bool.toNat_le x.stop
  rw [sourcesByte, byte_toNat]
  omega

theorem zoneFields_layout (z : ClosedZone) (p : List Byte) (hp : p = zoneFields z) :
    p.length = 25 ∧ numberAt p 0 2 = z.number % 65536
      ∧ numberAt p 2 1 = [ZoneClass.dimension, .blind, .weld, .stop, .merged].idxOf z.cls
      ∧ numberAt p 3 1 = (z.feature.map Fin.val).getD 255 ∧ numberAt p 4 1 = [Severity.minor, .major, .cutout].idxOf z.severity
      ∧ numberAt p 5 4 = signed32 z.start ∧ numberAt p 9 4 = signed32 z.finish
      ∧ numberAt p 13 1 = (z.sides.map [Sides.low, .high, .both].idxOf).getD 255
      ∧ numberAt p 14 4 = signed32 ((z.worst.map Worst.excess).getD 0) ∧ numberAt p 18 4 = signed32 ((z.worst.map Worst.w).getD 0)
      ∧ numberAt p 22 2 = z.billet.getD 0 % 65536
      ∧ numberAt p 24 1 = z.sources.dimension.toNat + 2 * z.sources.blind.toNat + 4 * z.sources.weld.toNat + 8 * z.sources.stop.toNat := by
  subst hp
  refine ⟨zoneFields_length z, ?number, ?cls, ?feature, ?severity, ?start, ?finish, ?sides, ?excess, ?worst, ?billet, ?sources⟩
  case feature => cases hfeature : z.feature <;> simp [zoneFields, hfeature, absent1]
  case sides => cases hsides : z.sides <;> simp [zoneFields, hsides, absent1]
  case excess => cases hworst : z.worst <;> simp [zoneFields, hworst]
  case worst => cases hworst : z.worst <;> simp [zoneFields, hworst]
  case billet => cases hworst : z.worst <;> simp [zoneFields, hworst]
  case sources => cases hworst : z.worst <;> simp [zoneFields, hworst, sourcesByte_toNat]
  all_goals simp [zoneFields]

theorem trendFields_layout (e : TrendEntry) (p : List Byte) (hp : p = trendFields e) :
    p.length = 12 ∧ numberAt p 0 1 = e.feature.val ∧ numberAt p 1 1 = e.extreme.least.isSome.toNat
      ∧ numberAt p 2 4 = signed32 (e.extreme.least.getD 0) ∧ numberAt p 6 4 = signed32 (e.extreme.greatest.getD 0)
      ∧ numberAt p 10 2 = e.extreme.missing % 65536 := by
  subst hp
  simp [trendFields]

/-- The bits of the reasons word (R165). -/
theorem reasonsWord_head (r : Reasons) (rest : List Byte) : numberAt (reasonsWord r ++ rest) 0 2
    = r.dimension.toNat + 2 * r.blind.toNat + 4 * r.weld.toNat + 8 * r.stop.toNat + 16 * r.cropSpan.toNat + 32 * r.failsafe.toNat
      + 64 * r.cutLost.toNat + 128 * r.withdrawn.toNat + 256 * r.aborted.toNat := by
  have hbit (b : Bool) : b.toNat ≤ 1 := Bool.toNat_le b
  have := hbit r.dimension
  have := hbit r.blind
  have := hbit r.weld
  have := hbit r.stop
  have := hbit r.cropSpan
  have := hbit r.failsafe
  have := hbit r.cutLost
  have := hbit r.withdrawn
  have := hbit r.aborted
  rw [reasonsWord, numberAt_le16]
  omega

@[simp] theorem length_reasonsWord (r : Reasons) : (reasonsWord r).length = 2 := by simp [reasonsWord]

/-- The fixed part of a length record (R165). -/
def recordHead (r : LengthRecord) : List Byte :=
  le16 r.sequence ++ [byte r.strand.val] ++ le16 r.index ++ leInt r.lower ++ leInt r.upper ++ leInt r.hot ++ leInt r.cold
    ++ le16 r.tMean ++ [yesNo r.fallback, verdictCode r.verdict] ++ reasonsWord r.reasons ++ le16 r.firstBillet ++ le16 r.lastBillet
    ++ bytes32 r.digest ++ [byte r.trends.length, byte r.zones.length] ++ le16 r.omitted

@[simp] theorem length_recordHead (r : LengthRecord) : (recordHead r).length = 39 := by simp [recordHead]

theorem recordFields_eq (r : LengthRecord) :
    recordFields r = recordHead r ++ (r.trends.flatMap trendFields ++ r.zones.flatMap zoneFields) := by
  rw [recordFields, recordHead, List.append_assoc _ (r.trends.flatMap trendFields)]

theorem recordFields_layout (r : LengthRecord) (p : List Byte) (hp : p = recordFields r) :
    p.length = 39 + 12 * r.trends.length + 25 * r.zones.length
      ∧ numberAt p 0 2 = r.sequence % 65536 ∧ numberAt p 2 1 = r.strand.val ∧ numberAt p 3 2 = r.index % 65536
      ∧ numberAt p 5 4 = signed32 r.lower ∧ numberAt p 9 4 = signed32 r.upper ∧ numberAt p 13 4 = signed32 r.hot
      ∧ numberAt p 17 4 = signed32 r.cold ∧ numberAt p 21 2 = r.tMean % 65536 ∧ numberAt p 23 1 = r.fallback.toNat
      ∧ numberAt p 24 1 = [Verdict.accept, .reject, .nose, .tail, .short].idxOf r.verdict
      ∧ numberAt p 25 2 = r.reasons.dimension.toNat + 2 * r.reasons.blind.toNat + 4 * r.reasons.weld.toNat
          + 8 * r.reasons.stop.toNat + 16 * r.reasons.cropSpan.toNat + 32 * r.reasons.failsafe.toNat
          + 64 * r.reasons.cutLost.toNat + 128 * r.reasons.withdrawn.toNat + 256 * r.reasons.aborted.toNat
      ∧ numberAt p 27 2 = r.firstBillet % 65536 ∧ numberAt p 29 2 = r.lastBillet % 65536 ∧ numberAt p 31 4 = r.digest.toNat
      ∧ numberAt p 35 1 = r.trends.length % 256 ∧ numberAt p 36 1 = r.zones.length % 256 ∧ numberAt p 37 2 = r.omitted % 65536
      ∧ p.drop 39 = r.trends.flatMap trendFields ++ r.zones.flatMap zoneFields := by
  subst hp
  rw [recordFields_eq]
  have hread {k m : Nat} (h : k + m ≤ 39) (rest : List Byte) : numberAt (recordHead r ++ rest) k m = numberAt (recordHead r) k m :=
    numberAt_left _ _ (by rw [length_recordHead]; exact h)
  have htrends := flatMap_length trendFields 12 trendFields_length r.trends
  have hzones := flatMap_length zoneFields 25 zoneFields_length r.zones
  refine ⟨by rw [List.length_append, List.length_append, htrends, hzones, length_recordHead, Nat.add_assoc], ?_⟩
  simp only [hread, Nat.reduceAdd, Nat.reduceLeDiff, List.drop_left' (length_recordHead r), and_true]
  simp [-bytes32_length, recordHead, reasonsWord_head, byte_toNat r.trends.length, byte_toNat r.zones.length]

end Sys2Proof.Machine
end

section
/-! The layouts of the readouts that carry the state of a unit (R54, R113, R141, R152, R164, R168), and the readouts themselves. -/

namespace Sys2Proof.Machine

/-! ### READ_CARD (R141) -/

theorem cardFields_identity (x : CardStore) (index : Byte) :
    ∃ p, cardFields x 0 index = some p ∧ p.length = 8 ∧ numberAt p 0 4 = x.card.die % 4294967296
      ∧ numberAt p 4 2 = x.card.revision % 65536 ∧ numberAt p 6 1 = x.card.alloy % 256 ∧ numberAt p 7 1 = x.card.strands % 256 := by
  refine ⟨_, rfl, ?_⟩
  simp [byte_toNat]

theorem cardFields_head {x : CardStore} {index : Byte} {i : Fin 8} (hi : index.toNat = i.val) :
    cardFields x 1 index = some (headFields x.card.heads[i]) := by
  change (indexOf 8 index).map _ = _
  rw [indexOf_eq hi]
  rfl

theorem cardFields_curve {x : CardStore} {index : Byte} {i : Fin 8} (hi : index.toNat = i.val) :
    ∃ p, cardFields x 2 index = some p ∧ p.length = 68 ∧ ∀ n : Fin 17, numberAt p (4 * n.val) 4 = signed32 x.card.curves[i][n] := by
  refine ⟨x.card.curves[i].toList.flatMap leInt, ?_, ?_, fun n => ?_⟩
  · change (indexOf 8 index).map _ = _
    rw [indexOf_eq hi]
    rfl
  · rw [flatMap_length leInt 4 length_leInt, Vector.length_toList]
  · have hrun := numberAt_run_start x.card.curves[i] n [] length_leInt (Nat.le_refl 4)
    rwa [List.append_nil, numberAt_last_leInt] at hrun

theorem cardFields_feature {x : CardStore} {index : Byte} {i : Fin 32} (hi : index.toNat = i.val) :
    (x.card.features[i] = none → cardFields x 3 index = some [0])
      ∧ ∀ f, x.card.features[i] = some f → cardFields x 3 index = some (1 :: featureFields f) := by
  refine ⟨fun hnone => ?_, fun f hf => ?_⟩
  · change (indexOf 32 index).map _ = _
    rw [indexOf_eq hi, Option.map_some, hnone]
  · change (indexOf 32 index).map _ = _
    rw [indexOf_eq hi, Option.map_some, hf]

/-- A count of features fits in a byte. -/
theorem byte_countP (q : Fin 32 → Bool) : (byte (featuresInOrder.countP q)).toNat = featuresInOrder.countP q := by
  have hle : featuresInOrder.countP q ≤ 32 := Nat.le_trans List.countP_le_length (by decide)
  rw [byte_toNat]
  omega

theorem cardFields_pending (x : CardStore) (index : Byte) :
    ∃ n : Byte, n.toNat = featuresInOrder.countP (fun f => x.pendingLimits[f].isSome)
      ∧ cardFields x 6 index = some (n :: featuresInOrder.flatMap fun f => match x.pendingLimits[f] with
          | some l => byte f.val :: limitsFields l
          | none => []) :=
  ⟨byte x.pendingCount, byte_countP _, rfl⟩

theorem cardFields_eq_none_iff (x : CardStore) (part index : Byte) :
    cardFields x part index = none ↔
      7 ≤ part.toNat ∨ ((part = 1 ∨ part = 2) ∧ 8 ≤ index.toNat) ∨ (part = 3 ∧ 32 ≤ index.toNat) := by
  have hpart (n : Byte) : part = n ↔ part.toNat = n.toNat := BitVec.toNat_inj.symm
  rw [hpart, hpart, hpart]
  unfold cardFields
  match part.toNat with
  | 0 => simp
  | 1 => simp [indexOf_eq_none_iff]
  | 2 => simp [indexOf_eq_none_iff]
  | 3 => simp [indexOf_eq_none_iff]
  | 4 => simp
  | 5 => simp
  | 6 => simp
  | n + 7 => simp

/-! ### HEAD_INFO and BANK_INFO (R54, R152) -/

theorem headInfoEntry_length (enabled : Bool) (e : HeadEntry) : (headInfoEntry enabled e).length = 9 := by
  cases h : e.lastLine <;> simp [headInfoEntry, h]

theorem headInfoEntry_layout (enabled : Bool) (e : HeadEntry) (p : List Byte) (hp : p = headInfoEntry enabled e) :
    numberAt p 0 1 = enabled.toNat ∧ numberAt p 1 1 = [HeadState.offline, .ok, .fault, .blinded].idxOf e.state
      ∧ numberAt p 2 1 = e.miss % 256 ∧ numberAt p 3 1 = e.sparse % 256
      ∧ (e.lastLine = none → numberAt p 4 2 = 65535 ∧ numberAt p 6 1 = 0 ∧ numberAt p 7 1 = 0)
      ∧ (∀ l, e.lastLine = some l → numberAt p 4 2 = l.valid % 65536 ∧ numberAt p 6 1 = 1 ∧ numberAt p 7 1 = l.peak % 256)
      ∧ numberAt p 8 1 = [CheckResult.none, .pending, .pass, .noLine, .dark, .bright, .sparse].idxOf e.check := by
  subst hp
  cases h : e.lastLine <;> simp [headInfoEntry, h, byte_toNat]

theorem headInfoFields_layout (s : State) (p : List Byte) (hp : p = headInfoFields s) :
    p.length = 73 ∧ numberAt p 72 1 = s.scan.check.isSome.toNat
      ∧ ∀ (h : Fin 8) (k m : Nat), k + m ≤ 9 →
          numberAt p (9 * h.val + k) m = numberAt (headInfoEntry s.store.card.heads[h].enabled s.scan.heads[h]) k m := by
  subst hp
  have hlength := flatMap_length (fun i : Fin 8 => headInfoEntry s.store.card.heads[i].enabled s.scan.heads[i]) 9
    (fun i => headInfoEntry_length _ _) headsInOrder
  rw [show 9 * headsInOrder.length = 72 from rfl] at hlength
  refine ⟨?_, ?_, fun h k m hk => ?_⟩
  · rw [headInfoFields, List.length_append, hlength]
    rfl
  · rw [headInfoFields, numberAt_right _ _ _ (Nat.le_of_eq hlength), hlength, numberAt_byte, yesNo_toNat]
  · exact numberAt_entry (fun i => headInfoEntry_length _ _) _ hk ((by decide : ∀ h : Fin 8, headsInOrder[h.val]? = some h) h)

theorem bankFields_length (b : Bank) : (bankFields b).length = 14 := by simp [bankFields]

theorem bankFields_layout (b : Bank) (p : List Byte) (hp : p = bankFields b) :
    numberAt p 0 1 = b.valid.toNat ∧ numberAt p 1 4 = b.die % 4294967296 ∧ numberAt p 5 2 = b.revision % 65536
      ∧ numberAt p 7 4 = b.digest.toNat ∧ numberAt p 11 1 = [Lock.unlocked, .held, .fixed].idxOf b.lock
      ∧ numberAt p 12 2 = b.storeCount % 65536 := by
  subst hp
  simp [-bytes32_length, bankFields]

/-- The bank engine's bytes: its state, and the bank it stores (R164). -/
theorem engine_bytes (e : BankEngine) : (e = .idle → (engineCode e).toNat = 0 ∧ (engineBank e).toNat = 255)
    ∧ ∀ j, e = .storing j → (engineCode e).toNat = 1 ∧ (engineBank e).toNat = j.bank.val := by
  refine ⟨?_, ?_⟩
  · rintro rfl
    exact ⟨rfl, rfl⟩
  · rintro j rfl
    exact ⟨rfl, byte_fin8 j.bank⟩

/-- The bytes of the last store outcome: its kind, and its bank (R164). -/
theorem outcome_bytes (o : StoreOutcome) : (o = .none → (outcomeCode o).toNat = 0 ∧ (outcomeBank o).toNat = 255)
    ∧ (∀ i, o = .done i → (outcomeCode o).toNat = 1 ∧ (outcomeBank o).toNat = i.val)
    ∧ ∀ i, o = .fail i → (outcomeCode o).toNat = 2 ∧ (outcomeBank o).toNat = i.val := by
  refine ⟨?_, ?_, ?_⟩
  · rintro rfl
    exact ⟨rfl, rfl⟩
  · rintro i rfl
    exact ⟨rfl, byte_fin8 i⟩
  · rintro i rfl
    exact ⟨rfl, byte_fin8 i⟩

theorem bankInfoFields_layout (x : CardStore) (p : List Byte) (hp : p = bankInfoFields x) :
    p.length = 117
      ∧ (∀ (b : Fin 8) (k m : Nat), k + m ≤ 14 → numberAt p (14 * b.val + k) m = numberAt (bankFields x.banks[b]) k m)
      ∧ numberAt p 112 1 = (x.boot.map Fin.val).getD 255 ∧ numberAt p 113 1 = (engineCode x.engine).toNat
      ∧ numberAt p 114 1 = (engineBank x.engine).toNat ∧ numberAt p 115 1 = (outcomeCode x.lastOutcome).toNat
      ∧ numberAt p 116 1 = (outcomeBank x.lastOutcome).toNat := by
  subst hp
  have hlength := flatMap_length bankFields 14 bankFields_length x.banks.toList
  rw [Vector.length_toList] at hlength
  refine ⟨?_, fun b k m hk => numberAt_run x.banks b _ bankFields_length hk, ?_⟩
  · rw [bankInfoFields, List.length_append, hlength]
    rfl
  · simp [-List.length_flatMap, bankInfoFields, hlength]

/-! ### STATUS and IDENT (R164) -/

theorem thermalFields_length (r : ThermalRecord) : (thermalFields r).length = 4 := by simp [thermalFields]

theorem thermalFields_layout (r : ThermalRecord) : numberAt (thermalFields r) 0 2 = r.temperature % 65536
    ∧ numberAt (thermalFields r) 2 1 = r.band.val ∧ numberAt (thermalFields r) 3 1 = r.fallback.toNat := by
  simp [thermalFields]

theorem inFlight_toNat (a : ScanAssembler) : (byte a.inFlight).toNat = slotsInOrder.countP fun i => a.slots[i].isSome := by
  have hle : a.inFlight ≤ 4 := Nat.le_trans List.countP_le_length (by decide)
  rw [byte_toNat]
  exact Nat.mod_eq_of_lt (by omega)

theorem readiness_toNat (c : Card) : (byte (readiness c)).toNat = readiness c := by
  have hle : readiness c ≤ 6 := by
    rw [readiness_eq]
    repeat' split
    all_goals decide
  rw [byte_toNat]
  omega

theorem numberAt_flagBytes (w : BitVec 11) (rest : List Byte) : numberAt (flagBytes w ++ rest) 0 2 = w.toNat := by
  rw [flagBytes, numberAt_bytes16, BitVec.toNat_setWidth]
  exact Nat.mod_eq_of_lt (Nat.lt_trans w.isLt (by decide))

@[simp] theorem length_flagBytes (w : BitVec 11) : (flagBytes w).length = 2 := by cases w; rfl

theorem rejectMask_testBit (s : State) (n : Nat) :
    (byteMask strandsInOrder s.rejectLine).toNat.testBit n = true ↔ ∃ i : Fin 4, i.val = n ∧ s.rejectLine i = true := by
  rw [BitVec.testBit_toNat, byteMask_getLsbD s.rejectLine mem_strandsInOrder (by decide)]

theorem statusFields_layout (s : State) (a b : Byte) (p : List Byte) (hp : p = a :: b :: statusFields s) :
    p.length = 66
      ∧ numberAt p 2 8 = s.runout.travel % 18446744073709551616 ∧ numberAt p 10 1 = [Puller.a, .b].idxOf s.runout.active
      ∧ numberAt p 11 1 = s.runout.cuts.length % 256 ∧ numberAt p 12 1 = [Press.idle, .running, .stopped, .ending].idxOf s.tracker.press
      ∧ (∀ i : Fin 4, numberAt p (13 + i.val) 1
            = [StrandState.absent, .idle, .nose, .running, .tailing, .ended].idxOf s.tracker.strands[i].state
          ∧ numberAt p (17 + 4 * i.val) 2 = s.thermal[i].temperature % 65536 ∧ numberAt p (19 + 4 * i.val) 1 = s.thermal[i].band.val
          ∧ numberAt p (20 + 4 * i.val) 1 = s.thermal[i].fallback.toNat
          ∧ numberAt p (46 + i.val) 1 = [none, some Verdict.accept, some .reject, some .nose, some .tail, some .short].idxOf s.verdict.last[i])
      ∧ (∀ h : Fin 8, numberAt p (33 + h.val) 1 = [HeadState.offline, .ok, .fault, .blinded].idxOf s.scan.heads[h].state)
      ∧ numberAt p 41 1 = slotsInOrder.countP (fun i => s.scan.slots[i].isSome)
      ∧ numberAt p 42 2 = ((s.scan.skips.map Skips.count).getD 0) % 65536 ∧ numberAt p 44 1 = s.scan.check.isSome.toNat
      ∧ numberAt p 45 1 = [Failsafe.normal, .failsafe].idxOf s.verdict.failsafe
      ∧ numberAt p 50 1 = (byteMask strandsInOrder s.rejectLine).toNat
      ∧ numberAt p 51 1 = s.alarmLine.toNat ∧ numberAt p 52 4 = s.store.digest.toNat ∧ numberAt p 56 1 = readiness s.store.card
      ∧ numberAt p 57 1 = featuresInOrder.countP (fun f => s.store.pendingLimits[f].isSome)
      ∧ numberAt p 58 1 = (s.store.boot.map Fin.val).getD 255
      ∧ numberAt p 59 1 = (engineCode s.store.engine).toNat ∧ numberAt p 60 1 = (engineBank s.store.engine).toNat
      ∧ numberAt p 61 1 = (outcomeCode s.store.lastOutcome).toNat ∧ numberAt p 62 1 = (outcomeBank s.store.lastOutcome).toNat
      ∧ numberAt p 63 2 = s.report.flags.toNat ∧ numberAt p 65 1 = s.report.queue.length % 256 := by
  subst hp
  have hthermal := flatMap_length thermalFields 4 thermalFields_length s.thermal.toList
  rw [Vector.length_toList] at hthermal
  unfold statusFields
  cases s.scan.skips <;>
  simp [-List.length_flatMap, -bytes32_length, hthermal, inFlight_toNat, readiness_toNat, CardStore.pendingCount, byte_countP,
    numberAt_flagBytes, byte_toNat s.runout.cuts.length, byte_toNat s.report.queue.length, Nat.add_comm 13, Nat.add_comm 17,
    Nat.add_comm 19, Nat.add_comm 20, Nat.add_comm 33, Nat.add_comm 46, numberAt_run s.thermal _ _ thermalFields_length,
    numberAt_run_start s.thermal _ _ thermalFields_length, thermalFields_layout]

theorem identFields_layout (x : Straps) : (identFields x).length = 49
      ∧ (identFields x).take 16 = [0x4C, 0x4F, 0x48, 0x46, 0x45, 0x4C, 0x44, 0, 0x57, 0x34, 0x38, 0x30, 0, 0, 0, 0]
      ∧ numberAt (identFields x) 16 1 = 1 ∧ numberAt (identFields x) 17 1 = x.addr1.toNat * 2 + x.addr0.toNat + 1
      ∧ numberAt (identFields x) 18 1 = x.rate.toNat
      ∧ ∀ n, n < 15 → numberAt (identFields x) (19 + 2 * n) 2 = [4, 8, 512, 4, 32, 8, 4, 4, 64, 48, 12, 64, 8, 32, 1024].getD n 0 := by
  have haddress : (addressOf x).toNat = x.addr1.toNat * 2 + x.addr0.toNat + 1 := by
    have := Bool.toNat_le x.addr1
    have := Bool.toNat_le x.addr0
    rw [addressOf, byte_toNat]
    omega
  refine ⟨rfl, rfl, rfl, haddress, yesNo_toNat x.rate, fun n hn => ?_⟩
  have hrun := numberAt_le16s (xs := [4, 8, 512, 4, 32, 8, 4, 4, 64, 48, 12, 64, 8, 32, 1024]) hn []
  rw [List.append_nil] at hrun
  rw [identFields, numberAt_right _ _ _ (Nat.le_add_right 19 (2 * n))]
  change numberAt _ (19 + 2 * n - 19) 2 = _
  rw [Nat.add_sub_cancel_left, hrun]
  exact (by decide : ∀ n : Fin 15, [4, 8, 512, 4, 32, 8, 4, 4, 64, 48, 12, 64, 8, 32, 1024].getD n.val 0 % 65536
    = [4, 8, 512, 4, 32, 8, 4, 4, 64, 48, 12, 64, 8, 32, 1024].getD n.val 0) ⟨n, hn⟩

end Sys2Proof.Machine
end

section
/-! TRACK_READ and REPORT_READ (R113, R168), and the readouts as a whole. -/

namespace Sys2Proof.Machine

/-! ### REPORT_READ (R168) -/

theorem reportFields_layout (u : ReportUnit) (p : List Byte) (hp : p = reportFields u) :
    numberAt p 0 1 = u.queue.length % 256 ∧ numberAt p 1 4 = u.tally.lengths % 4294967296
      ∧ numberAt p 5 4 = u.tally.rejects % 4294967296 ∧ numberAt p 9 4 = u.tally.millis % 4294967296
      ∧ (u.queue = [] → p.length = 13) ∧ ∀ r rest, u.queue = r :: rest → p.drop 13 = recordFields r := by
  subst hp
  refine ⟨?_, ?_, ?_, ?_, fun hempty => ?_, fun r rest hqueue => ?_⟩
  case refine_5 => simp [reportFields, tallyFields, hempty]
  case refine_6 =>
    rw [reportFields, hqueue]
    exact List.drop_left' (by simp [tallyFields])
  all_goals simp [reportFields, tallyFields, byte_toNat]

/-! ### TRACK_READ (R113) -/

theorem leastOf_eq_min? (xs : List Int) : leastOf xs = xs.min? := by cases xs <;> rfl

/-- A coordinate that is absent is carried as the least of the 4-byte numbers (R163). -/
theorem coordinateFields_eq (x : Option Int) : coordinateFields x = leInt (x.getD (-2147483648)) := by
  cases x <;> rfl

theorem Strand.mem_openStarts {st : Strand} {x : Int} : x ∈ st.openStarts ↔
    ∃ f : Fin 32, (∃ o, st.dimensions[f] = some o ∧ o.start = x) ∨ ∃ o, st.blinds[f] = some o ∧ o.start = x := by
  have hmem {α : Type} (v : Vector (Option α) 32) (start : α → Int) :
      x ∈ v.toList.filterMap (fun o => o.map start) ↔ ∃ f : Fin 32, ∃ o, v[f] = some o ∧ start o = x := by
    simp only [List.mem_filterMap, Vector.mem_toList_iff, Vector.mem_iff_getElem, Option.map_eq_some_iff]
    refine ⟨?_, ?_⟩
    · rintro ⟨-, ⟨i, hi, rfl⟩, o, ho, hx⟩
      exact ⟨⟨i, hi⟩, o, ho, hx⟩
    · rintro ⟨f, o, ho, hx⟩
      exact ⟨_, ⟨f.val, f.isLt, rfl⟩, o, ho, hx⟩
  rw [Strand.openStarts, List.mem_append, hmem, hmem, ← exists_or]

theorem Strand.leastOpen_of_none {st : Strand} (h : ∀ f : Fin 32, st.dimensions[f] = none ∧ st.blinds[f] = none) :
    leastOf st.openStarts = none := by
  rw [leastOf_eq_min?, List.min?_eq_none_iff, List.eq_nil_iff_forall_not_mem]
  intro x hx
  obtain ⟨f, ⟨o, ho, -⟩ | ⟨o, ho, -⟩⟩ := Strand.mem_openStarts.mp hx
  · rw [(h f).1] at ho
    cases ho
  · rw [(h f).2] at ho
    cases ho

theorem Strand.leastOpen_of_least {st : Strand} {x : Int}
    (hx : ∃ f : Fin 32, (∃ o, st.dimensions[f] = some o ∧ o.start = x) ∨ ∃ o, st.blinds[f] = some o ∧ o.start = x)
    (hleast : ∀ f : Fin 32, (∀ o, st.dimensions[f] = some o → x ≤ o.start) ∧ ∀ o, st.blinds[f] = some o → x ≤ o.start) :
    leastOf st.openStarts = some x := by
  rw [leastOf_eq_min?, List.min?_eq_some_iff]
  refine ⟨Strand.mem_openStarts.mpr hx, fun y hy => ?_⟩
  obtain ⟨f, ⟨o, ho, rfl⟩ | ⟨o, ho, rfl⟩⟩ := Strand.mem_openStarts.mp hy
  · exact (hleast f).1 o ho
  · exact (hleast f).2 o ho

theorem openFields_layout (st : Strand) (p : List Byte) (hp : p = openFields st) :
    p.length = 14 ∧ numberAt p 0 1 = featuresInOrder.countP (fun f => st.dimensions[f].isSome)
      ∧ numberAt p 1 1 = featuresInOrder.countP (fun f => st.blinds[f].isSome)
      ∧ numberAt p 2 4 = (featureMask fun f => st.dimensions[f].isSome).toNat
      ∧ numberAt p 6 4 = (featureMask fun f => st.blinds[f].isSome).toNat
      ∧ numberAt p 10 4 = signed32 ((leastOf st.openStarts).getD (-2147483648)) := by
  subst hp
  simp [-bytes32_length, openFields, coordinateFields_eq, byte_countP]

/-- What TRACK_READ carries of a strand before its closed zones (R113). -/
def trackHead (st : Strand) : List Byte :=
  [strandCode st.state] ++ leInt st.nose ++ coordinateFields st.tail ++ leInt st.lastCut ++ le16 st.billet ++ le16 st.lowerBillet
    ++ le16 st.lengthIndex ++ le16 st.nextZone ++ [yesNo st.cutLost, byte st.closed.length]

theorem trackFields_eq (st : Strand) (start : Nat) :
    trackFields st start = trackHead st ++ (((st.closed.drop start).take 8).flatMap zoneFields ++ openFields st) := by
  rw [trackFields, trackHead, List.append_assoc _ (((st.closed.drop start).take 8).flatMap zoneFields)]

theorem trackHead_layout (st : Strand) (p : List Byte) (hp : p = trackHead st) :
    p.length = 23 ∧ numberAt p 0 1 = [StrandState.absent, .idle, .nose, .running, .tailing, .ended].idxOf st.state
      ∧ numberAt p 1 4 = signed32 st.nose ∧ numberAt p 5 4 = signed32 (st.tail.getD (-2147483648))
      ∧ numberAt p 9 4 = signed32 st.lastCut ∧ numberAt p 13 2 = st.billet % 65536 ∧ numberAt p 15 2 = st.lowerBillet % 65536
      ∧ numberAt p 17 2 = st.lengthIndex % 65536 ∧ numberAt p 19 2 = st.nextZone % 65536 ∧ numberAt p 21 1 = st.cutLost.toNat
      ∧ numberAt p 22 1 = st.closed.length % 256 := by
  subst hp
  simp [trackHead, coordinateFields_eq, byte_toNat]

theorem trackFields_layout (st : Strand) (start n : Nat) (p : List Byte) (hp : p = trackFields st start)
    (hn : n = 23 + 25 * min 8 (st.closed.length - start)) :
    p.length = n + 14 ∧ (∀ k m, k + m ≤ 23 → numberAt p k m = numberAt (trackHead st) k m)
      ∧ (p.drop 23).take (n - 23) = ((st.closed.drop start).take 8).flatMap zoneFields
      ∧ ∀ k m, numberAt p (n + k) m = numberAt (openFields st) k m := by
  subst hp hn
  rw [trackFields_eq]
  obtain ⟨hhead, -⟩ := trackHead_layout st _ rfl
  obtain ⟨hopen, -⟩ := openFields_layout st _ rfl
  have hzones := flatMap_length zoneFields 25 zoneFields_length ((st.closed.drop start).take 8)
  rw [List.length_take, List.length_drop] at hzones
  refine ⟨?_, fun k m hk => numberAt_left _ _ (by rw [hhead]; exact hk), ?_, fun k m => ?_⟩
  · rw [List.length_append, List.length_append, hhead, hzones, hopen, Nat.add_assoc]
  · rw [List.drop_left' hhead, Nat.add_sub_cancel_left, List.take_left' hzones]
  · rw [← List.append_assoc, numberAt_right _ _ _ (by rw [List.length_append, hhead, hzones]; exact Nat.le_add_right _ _),
      List.length_append, hhead, hzones, Nat.add_sub_cancel_left]

/-! ### The readouts -/

theorem exec_readout {s : State} {c : Instr} {f : State → List Byte} (hexec : exec c s = s.request c (answering fun s => okReply (f s)))
    (hserves : s.serves c) : exec c s = .next (s.answered c { status := .ok, reason := none, fields := f s }) :=
  State.exec_of_served hexec hserves rfl

theorem exec_headInfo {s : State} (hserves : s.serves .headInfo) : exec .headInfo s = .next
    (State.answered { s with report := { s.report with flags := s.report.flags &&& 1023#11 } } .headInfo
      { status := .ok, reason := none, fields := headInfoFields s }) :=
  State.exec_of_served (k := State.headInfo) rfl hserves (by rw [State.headInfo, ReportUnit.lower_checkDone]; rfl)

theorem readCard_cases (s : State) (part index : Byte) (hserves : s.serves (.readCard part index)) :
    (cardFields s.store part index = none → s.refuses (.readCard part index) .badValue)
      ∧ ∀ bs, cardFields s.store part index = some bs → exec (.readCard part index) s = .next
          (s.answered (.readCard part index) { status := .ok, reason := none, fields := bytes32 s.store.digest ++ bs }) := by
  refine ⟨fun hnone => State.refuses_of (k := answering (State.readCard part index)) rfl hserves ?_,
    fun bs hbs => State.exec_of_served (k := answering (State.readCard part index)) rfl hserves ?_⟩
  · simp only [answering, State.readCard, hnone]
  · simp only [answering, State.readCard, hbs, okReply]

theorem trackRead_cases (s : State) (strand start : Byte) (hserves : s.serves (.trackRead strand start)) :
    (4 ≤ strand.toNat ∨ 48 ≤ start.toNat → s.refuses (.trackRead strand start) .badValue)
      ∧ ∀ i : Fin 4, strand.toNat = i.val → start.toNat ≤ 47 → exec (.trackRead strand start) s = .next
          (s.answered (.trackRead strand start)
            { status := .ok, reason := none, fields := trackFields s.tracker.strands[i] start.toNat }) := by
  refine ⟨fun h => State.refuses_of (k := answering (State.trackRead strand start)) rfl hserves ?_,
    fun i hi hstart => State.exec_of_served (k := answering (State.trackRead strand start)) rfl hserves ?_⟩
  · rw [answering, State.trackRead]
    cases hindex : indexOf 4 strand with
    | none => rfl
    | some i =>
      have hlt : ¬ 4 ≤ strand.toNat := fun hge => by rw [indexOf_of_ge hge] at hindex; cases hindex
      exact congrArg (Prod.mk s) (if_pos (h.resolve_left hlt))
  · rw [answering, State.trackRead, indexOf_eq hi]
    exact congrArg (Prod.mk s) (if_neg (Std.not_lt.mpr hstart))

/-- Settles O34: the readouts answer through `answering`, and each payload is read field by field out of its layout. -/
theorem readoutsAnswerAndChangeNothing : Obligations.ReadoutsAnswerAndChangeNothing := by
  unfold Obligations.ReadoutsAnswerAndChangeNothing
  refine ⟨fun s => ⟨exec_readout (f := statusFields) rfl, exec_readout (f := fun s => identFields s.link.straps) rfl,
      exec_readout (f := fun s => bankInfoFields s.store) rfl, exec_readout (f := fun s => reportFields s.report) rfl,
      exec_readout (f := fun s => counterFields s.report.counters) rfl, exec_headInfo⟩,
    fun s part index hserves => ?_, fun s strand start hserves => ?_⟩
  · obtain ⟨hrefused, hread⟩ := readCard_cases s part index hserves
    exact ⟨hrefused, cardFields_eq_none_iff s.store part index, hread⟩
  obtain ⟨hrefused, hread⟩ := trackRead_cases s strand start hserves
  refine ⟨hrefused, fun i hi hstart => ⟨hread i hi hstart, ?_, counterFields_layout, fun x index => ?_, headFields_layout,
    featureFields_layout, limitsFields_layout, thermalSectionFields_layout, lineSectionFields_layout, fun s a b p hp => ?_,
    identFields_layout, fun x p hp => ?_, fun s p hp => ?_, zoneFields_layout, trendFields_layout, recordFields_layout,
    reportFields_layout, fun st start n p hp hn => ?_⟩⟩
  · exact ⟨fun n => ⟨length_le16 n, numberAt_last_le16 n⟩, fun n => ⟨length_le32 n, numberAt_last_le32 n⟩,
      fun n => ⟨length_le64 n, numberAt_last_le64 n⟩, fun x => ⟨length_leInt x, numberAt_last_leInt x⟩⟩
  · exact ⟨cardFields_identity x index, fun i hi => ⟨cardFields_head hi, cardFields_curve hi⟩, fun i hi => cardFields_feature hi, rfl, rfl,
      cardFields_pending x index⟩
  · obtain ⟨hlength, htravel, hpuller, hcuts, hpress, hstrands, hheads, hslots, hskips, hcheck, hfailsafe, hreject, halarm, hdigest,
      hready, hpending, hboot, hengine, hbank, houtcome, hlast, hflags, hqueue⟩ := statusFields_layout s a b p hp
    obtain ⟨hidle, hstoring⟩ := engine_bytes s.store.engine
    obtain ⟨hnone, hdone, hfail⟩ := outcome_bytes s.store.lastOutcome
    rw [hengine, hbank, houtcome, hlast, hreject]
    exact ⟨hlength, htravel, hpuller, hcuts, hpress, hstrands, hheads, hslots, hskips, hcheck, hfailsafe, rejectMask_testBit s, halarm,
      hdigest, hready, hpending, hboot, hidle, hstoring, hnone, hdone, hfail, hflags, hqueue⟩
  · obtain ⟨hlength, hbanks, hboot, hengine, hbank, houtcome, hlast⟩ := bankInfoFields_layout x p hp
    obtain ⟨hidle, hstoring⟩ := engine_bytes x.engine
    obtain ⟨hnone, hdone, hfail⟩ := outcome_bytes x.lastOutcome
    rw [hengine, hbank, houtcome, hlast]
    refine ⟨hlength, fun b => ?_, hboot, hidle, hstoring, hnone, hdone, hfail⟩
    obtain ⟨hvalid, hdie, hrevision, hdigest, hlock, hcount⟩ := bankFields_layout x.banks[b] _ rfl
    have hstart := hbanks b 0 1 (by decide)
    rw [Nat.add_zero] at hstart
    rw [hstart, hbanks b 1 4 (by decide), hbanks b 5 2 (by decide), hbanks b 7 4 (by decide), hbanks b 11 1 (by decide),
      hbanks b 12 2 (by decide)]
    exact ⟨hvalid, hdie, hrevision, hdigest, hlock, hcount⟩
  · obtain ⟨hlength, hcheck, hentries⟩ := headInfoFields_layout s p hp
    refine ⟨hlength, hcheck, fun h => ?_⟩
    have hentry := headInfoEntry_layout s.store.card.heads[h].enabled s.scan.heads[h] _ rfl
    have hstart := hentries h 0 1 (by decide)
    rw [Nat.add_zero] at hstart
    rw [hstart, hentries h 1 1 (by decide), hentries h 2 1 (by decide), hentries h 3 1 (by decide), hentries h 4 2 (by decide),
      hentries h 6 1 (by decide), hentries h 7 1 (by decide), hentries h 8 1 (by decide)]
    exact hentry
  · obtain ⟨hlength, hhead, hzones, hopen⟩ := trackFields_layout st start n p hp hn
    obtain ⟨-, hstate, hnose, htail, hcut, hbillet, hlower, hindex, hnext, hlost, hclosed⟩ := trackHead_layout st _ rfl
    obtain ⟨-, hdimensions, hblinds, hdimensionMask, hblindMask, hleast⟩ := openFields_layout st _ rfl
    have hopen0 := hopen 0 1
    rw [Nat.add_zero] at hopen0
    rw [hhead 0 1 (by decide), hhead 1 4 (by decide), hhead 5 4 (by decide), hhead 9 4 (by decide), hhead 13 2 (by decide),
      hhead 15 2 (by decide), hhead 17 2 (by decide), hhead 19 2 (by decide), hhead 21 1 (by decide), hhead 22 1 (by decide), hopen0,
      hopen 1 1, hopen 2 4, hopen 6 4, hopen 10 4, hdimensionMask, hblindMask, hleast]
    exact ⟨hlength, hstate, hnose, htail, hcut, hbillet, hlower, hindex, hnext, hlost, hclosed, hzones, hdimensions, hblinds,
      featureMask_testBit _, featureMask_testBit _, fun hnone => by rw [Strand.leastOpen_of_none hnone]; rfl,
      fun x hx hall => by rw [Strand.leastOpen_of_least hx hall]; rfl⟩

end Sys2Proof.Machine
end
